-- ==== Sys2Proof/Word.lean ====
section
/-! DEFINITION. The byte, the only word of this hardware (00_scope.md R9, 20_memory.md R52: no quantity spans
more than one byte). Counters, indexes, lengths and accumulators are naturals (R8), so they have no word type. -/

namespace Sys2Proof

/-- A byte: an unsigned 8-bit value, bit 7 the most significant (00_scope.md R9). -/
abbrev Byte := BitVec 8

end Sys2Proof
end

