-- ==== Sys2Proof/Syntax.lean ====
section
/-! DEFINITION. The instruction set GHC-OPS (00_scope.md R2, 30_encoding.md R72–R78): one constructor per row of
spec/opcode_table.json, its operands as the assembler syntax of 30_encoding.md R82 writes them. The constraints on
the operands are in WellFormed.lean. -/

namespace Sys2Proof

/-- An opcode with its operands. -/
inductive Instr where
  /-- LiteralRun `lit k, d1, ..., dk` (R73): the count and its data bytes. -/
  | lit (k : Nat) (ds : List Byte)
  /-- ZeroRun `zrun c` (R74): the count c itself, of which the opcode's field holds c − 2. -/
  | zrun (c : Nat)
  /-- `stop` (R75): the byte 0x90. -/
  | stop
  /-- The reserved byte 0x91 (R76). -/
  | reserved91
  /-- The reserved bytes 0x92 + x, 1001001x (R76). -/
  | reserved92 (x : Nat)
  /-- The reserved bytes 0x94 + x, 100101xx (R76). -/
  | reserved94 (x : Nat)
  /-- The reserved bytes 0x98 + x, 10011xxx (R76). -/
  | reserved98 (x : Nat)
  /-- BackrefExtend `brext f, v` (R77): the length flag and the distance nibble. -/
  | brext (f v : Nat)
  /-- Backref `bref m, q` (R78): the fields nnn and kkk. -/
  | bref (m q : Nat)
deriving DecidableEq, Repr

end Sys2Proof
end

