-- ==== Sys2Proof/WellFormed.lean ====
section
/-! DEFINITION. Which instructions the format can hold: the operand constraints of 30_encoding.md R82. -/

namespace Sys2Proof

/-- The operand constraints of 30_encoding.md R82 (the ranges of R73–R78); for the reserved rows, that the free low
bits of the row's pattern hold the operand (R76). -/
def Instr.wellFormed : Instr → Bool
  | .lit k ds => k ≤ 127 && ds.length == k
  | .zrun c => 2 ≤ c && c ≤ 17
  | .stop => true
  | .reserved91 => true
  | .reserved92 x => x ≤ 1
  | .reserved94 x => x ≤ 3
  | .reserved98 x => x ≤ 7
  | .brext f v => f ≤ 1 && v ≤ 15
  | .bref m q => m ≤ 7 && q ≤ 7

end Sys2Proof
end

