-- ==== Sys2Proof/Decode.lean ====
section
/-! DEFINITION. The opcode format (30_encoding.md): bit fields, classification of a leading byte in the priority
order of R72, the decoder, and after it the encoder of R82. -/

namespace Sys2Proof

/-- `b[hi:lo]`, the unsigned value of bits hi down to lo (00_scope.md R9). -/
def bits (b : Byte) (hi lo : Nat) : Nat := (b.toNat >>> lo) % 2 ^ (hi - lo + 1)

/-- How many argument bytes follow the leading byte b: k for a LiteralRun, none otherwise (R71). -/
def operandBytes (b : Byte) : Nat := if bits b 7 7 = 0 then bits b 6 0 else 0

/-- The length of an opcode in bytes, from its leading byte alone (R71). -/
def opcodeLength (b : Byte) : Nat := 1 + operandBytes b

/-- The opcode whose leading byte is b, where `rest` follows it in the stream: the first row that matches in the
priority order of R72, its operands assembled as R79 gives. A LiteralRun takes the data bytes there are. -/
def classify (b : Byte) (rest : List Byte) : Instr :=
  if bits b 7 7 = 0 then .lit (bits b 6 0) (rest.take (bits b 6 0))
  else if bits b 7 4 = 0b1000 then .zrun (bits b 3 0 + 2)
  else if bits b 7 5 = 0b101 then .brext (bits b 4 4) (bits b 3 0)
  else if bits b 7 6 = 0b11 then .bref (bits b 5 3) (bits b 2 0)
  else if bits b 7 0 = 0b10010000 then .stop
  else if bits b 7 0 = 0b10010001 then .reserved91
  else if bits b 7 1 = 0b1001001 then .reserved92 (bits b 0 0)
  else if bits b 7 2 = 0b100101 then .reserved94 (bits b 1 0)
  else .reserved98 (bits b 2 0)

/-- Why bytes hold no whole opcode. -/
inductive DecodeError where
  /-- There is no byte left: the end of the stream (R70), which is no error of the stream. -/
  | endOfStream
  /-- Fewer than k data bytes follow a LiteralRun's leading byte (42_lz77_decoder.md R142). The opcode is known
  from its leading byte (R71); it carries the data bytes there are. -/
  | truncated (i : Instr)
deriving DecidableEq, Repr

/-- The first opcode of a byte sequence and the bytes after it. Every leading byte is an opcode or a reserved row
(R80), so only a missing byte is rejected. -/
def decode : List Byte → Except DecodeError (Instr × List Byte)
  | [] => .error .endOfStream
  | b :: rest =>
    if rest.length < operandBytes b then .error (.truncated (classify b rest))
    else .ok (classify b rest, rest.drop (operandBytes b))

/-- The bytes of an opcode: the encoding column of R82 (`.byte x` for the reserved rows). -/
def encode : Instr → List Byte
  | .lit k ds => BitVec.ofNat 8 k :: ds
  | .zrun c => [BitVec.ofNat 8 (0x80 ||| (c - 2))]
  | .stop => [0x90]
  | .reserved91 => [0x91]
  | .reserved92 x => [BitVec.ofNat 8 (0x92 ||| x)]
  | .reserved94 x => [BitVec.ofNat 8 (0x94 ||| x)]
  | .reserved98 x => [BitVec.ofNat 8 (0x98 ||| x)]
  | .brext f v => [BitVec.ofNat 8 (0xA0 ||| (f <<< 4) ||| v)]
  | .bref m q => [BitVec.ofNat 8 (0xC0 ||| (m <<< 3) ||| q)]

/-- A row of spec/opcode_table.json: a leading byte b is the row's when `b & mask = pattern`. -/
structure OpcodeRow where
  mnemonic : String
  mask : Byte
  pattern : Byte
deriving DecidableEq, Repr

/-- Whether the leading byte b is the row's. -/
def OpcodeRow.matches (r : OpcodeRow) (b : Byte) : Bool := b &&& r.mask == r.pattern

/-- spec/opcode_table.json, row by row. The decoder does not use it: it follows R72, and a claim compares the two. -/
def opcodeTable : List OpcodeRow :=
  [⟨"lit", 0x80, 0x00⟩, ⟨"zrun", 0xF0, 0x80⟩, ⟨"stop", 0xFF, 0x90⟩, ⟨"reserved", 0xFF, 0x91⟩,
   ⟨"reserved", 0xFE, 0x92⟩, ⟨"reserved", 0xFC, 0x94⟩, ⟨"reserved", 0xF8, 0x98⟩, ⟨"brext", 0xE0, 0xA0⟩,
   ⟨"bref", 0xC0, 0xC0⟩]

/-- An opcode's row of `opcodeTable`, counted from 0. -/
def Instr.row : Instr → Nat
  | .lit _ _ => 0
  | .zrun _ => 1
  | .stop => 2
  | .reserved91 => 3
  | .reserved92 _ => 4
  | .reserved94 _ => 5
  | .reserved98 _ => 6
  | .brext _ _ => 7
  | .bref _ _ => 8

/-- Byte j of an opcode given as a number of nbits bits, bit 0 the least significant bit of byte 0; zero above nbits. -/
def wordByte (nbits w j : Nat) : Byte := if 8 * j < nbits then BitVec.ofNat 8 (w >>> (8 * j)) else 0

/-- The bytes of that opcode, as many as its leading byte says (R71). -/
def wordBytes (nbits w : Nat) : List Byte :=
  (List.range (opcodeLength (wordByte nbits w 0))).map (wordByte nbits w)

/-- The instruction the decoder reads from the opcode whose bits are w. -/
def decodeTableWord (nbits w : Nat) : Option Instr :=
  match decode (wordBytes nbits w) with
  | .ok (i, _) => some i
  | .error _ => none

end Sys2Proof
end

