-- ==== Sys2Proof/Config.lean ====
section
/-! DEFINITION. What an instance of the core fixes (00_scope.md R7), and the free values: what the spec leaves
unspecified (60_exceptions.md R178). The fixed parameters of R6 are in Machine/Params.lean. -/

namespace Sys2Proof

/-- The open parameters of 00_scope.md R7, each a natural or `unbounded` (`none`). They are the only configuration
and are "fixed for a given model instance" (10_state.md R37): State holds them and no step writes them. -/
structure Capacities where
  /-- MAX_PAYLOAD_OUT: how many payload bytes the lz77_decoder may write, not counting the 48 context bytes. -/
  maxPayloadOut : Option Nat
  /-- MAX_STREAM_OUT: how many stream bytes the lz77_encoder may write. -/
  maxStreamOut : Option Nat
deriving DecidableEq, Repr

/-- FREE VALUE (log 6). After a fault "The destination buffers (CTX, STR_OUT, OUT) hold unspecified bytes"
(60_exceptions.md R178). Draw number n of such a buffer's contents, length included. It has no body: nothing can
be proved about it beyond its being some byte sequence. -/
opaque Config.unspecifiedBytes : Nat → List Byte

end Sys2Proof
end

