-- ==== Sys2Proof/Machine/State.lean ====
section
/-! DEFINITION. Everything the spec gives the machine (10_state.md, 20_memory.md R50), as plain data, and the state
after reset. OLEN, PLEN, SLEN, P and PAY_OUT are computed from it (Ops.lean, log 9). -/

namespace Sys2Proof.Machine

/-- The address spaces of 20_memory.md R50. -/
inductive Space where
  | hdr | ctx | payIn | win | strOut | strIn | out | payOut
deriving DecidableEq, Repr

/-- The spaces the core writes (R50, column "written by"): CTX, STR_OUT and OUT. -/
inductive Dest where
  | ctx | strOut | out
deriving DecidableEq, Repr

/-- The fatal error kinds of 60_exceptions.md R170; their codes are in Flags.lean. -/
inductive ErrorKind where
  /-- Raised by a Backref whose distance exceeds CUR (R171). -/
  | distanceOutOfRange
  /-- Raised by a LiteralRun cut short and by a stream that ends inside a chain (R172). -/
  | truncatedOpcode
  /-- Raised by a write past a fixed capacity (R173). -/
  | outputOverflow
  /-- Raised by a leading byte 0x91 to 0x9F (R175). -/
  | reservedOpcode
  /-- Raised by any command whose header is under 40 bytes (R176). -/
  | headerTooShort
deriving DecidableEq, Repr

/-- An input buffer the host hands over: where it lies in the host's storage and its bytes (log 5). -/
structure HostBuffer where
  base : Nat
  bytes : List Byte
deriving DecidableEq, Repr

/-- Destination storage the host provides: where it lies and how long it is (70_reset_and_hazards.md R192, log 5). -/
structure HostStorage where
  base : Nat
  size : Nat
deriving DecidableEq, Repr

/-- The three commands of 10_state.md R21, with the buffers of 20_memory.md R63. -/
inductive Command where
  | build (hdr : HostBuffer) (dest : HostStorage)
  | compress (hdr payIn : HostBuffer) (dest : HostStorage)
  | decompress (hdr strIn : HostBuffer) (dest : HostStorage)
deriving DecidableEq, Repr

/-- What the core is doing between two steps (10_state.md R20). BUILD runs within one step (log 1). -/
inductive Phase where
  /-- No command is running (70_reset_and_hazards.md R190). -/
  | idle
  /-- COMPRESS, in the main loop of 41_lz77_encoder.md R110. -/
  | encoding
  /-- DECOMPRESS, in the main loop of 42_lz77_decoder.md R140. -/
  | decoding
deriving DecidableEq, Repr

/-- The last command's result (10_state.md R21). -/
inductive Result where
  /-- None: no command has completed, or a fault ended the last one (60_exceptions.md R178). -/
  | none
  /-- BUILD's context buffer. -/
  | context (bytes : List Byte)
  /-- COMPRESS's opcode stream. -/
  | stream (bytes : List Byte)
  /-- DECOMPRESS's payload. -/
  | payload (bytes : List Byte)
deriving DecidableEq, Repr

/-- The machine. INVENTORY.md's "## State" names each field's rule. -/
structure State where
  /-- MAX_PAYLOAD_OUT and MAX_STREAM_OUT (00_scope.md R7); no step writes them. -/
  caps : Capacities
  /-- The commands the host will issue, oldest first (the model's own field, log 2). -/
  pending : List Command
  /-- The running command's loop (R20). -/
  phase : Phase
  /-- The last command's result (R21). -/
  result : Result
  /-- HDR (R50). -/
  hdr : List Byte
  /-- CTX (R23, R50). -/
  ctx : List Byte
  /-- PAY_IN (R50). -/
  payIn : List Byte
  /-- WIN (R25). -/
  win : List Byte
  /-- STR_OUT (R26). -/
  strOut : List Byte
  /-- STR_IN (R50). -/
  strIn : List Byte
  /-- OUT (R34). -/
  out : List Byte
  /-- I, the payload index (R24). -/
  i : Nat
  /-- LIT_ACTIVE (R27). -/
  litActive : Bool
  /-- LIT_HDR (R27). -/
  litHdr : Nat
  /-- Z, the zero-run length (R28). -/
  z : Nat
  /-- BEST_L, the best match length (R28). -/
  bestL : Nat
  /-- BEST_J, the best match start (R28). -/
  bestJ : Nat
  /-- IP, the program counter of the opcode interpreter (R29). -/
  ip : Nat
  /-- CUR, the write cursor (R30): 48 at the start of every command, also where there is no OUT (R40, log 9). -/
  cur : Nat
  /-- NA, the length accumulator (R31). -/
  na : Nat
  /-- SA, the distance accumulator (R31). -/
  sa : Nat
  /-- CHAIN_OPEN (R32). -/
  chainOpen : Bool
  /-- STOP_SEEN (R33). -/
  stopSeen : Bool
  /-- STATUS: ERR in bits 2..0, UNSUP in bit 3, bits 7..4 hardwired 0 (R35). -/
  status : BitVec 8
  /-- FAULT_POS (R36). -/
  faultPos : Nat
  /-- The next draw of the free values (the model's own field, log 6). -/
  freeIdx : Nat
deriving DecidableEq, Repr

/-- Why the MODEL stops. None of these is one of the spec's errors: those end the command and are next states
(60_exceptions.md R178). -/
inductive Fault where
  /-- Raised by memRead and memWrite at an index the space does not have (20_memory.md R50; log 12). No rule of the
  spec makes such an access. Safe: the model stops. -/
  | noSuchByte (sp : Space) (index : Nat)
deriving DecidableEq, Repr

/-- Why the model gives a step no meaning. -/
inductive Refusal where
  /-- Raised by exec's arm of an instruction that has no meaning yet. Safe: the model stops. No arm raises it. -/
  | notModelled (mnemonic : String)
  /-- Raised at the start of a command whose buffers overlap: "A model refuses a command whose buffers overlap"
  (20_memory.md R63; log 5). Safe: the model stops. -/
  | overlappingBuffers
deriving DecidableEq, Repr

/-- Reset (70_reset_and_hazards.md R190): the core is idle, no buffer belongs to it and there is no result. The
registers hold the values of 10_state.md R40, the buffers are empty (log 8), the capacities are unbounded (log 4). -/
def State.reset : State where
  caps := { maxPayloadOut := none, maxStreamOut := none }
  pending := []
  phase := .idle
  result := .none
  hdr := []
  ctx := []
  payIn := []
  win := []
  strOut := []
  strIn := []
  out := []
  i := 0
  litActive := false
  litHdr := 0
  z := 0
  bestL := 0
  bestJ := 0
  ip := 0
  cur := 48
  na := 0
  sa := 0
  chainOpen := false
  stopSeen := false
  status := 0
  faultPos := 0
  freeIdx := 0

end Sys2Proof.Machine
end

