-- ==== Sys2Proof/Machine/Flags.lean ====
section
/-! DEFINITION. STATUS (10_state.md R35, 60_exceptions.md R170) and the one-bit flags LIT_ACTIVE, CHAIN_OPEN and
STOP_SEEN (R27, R32, R33). -/

namespace Sys2Proof.Machine

/-- The error codes of 60_exceptions.md R170, the legal values of STATUS.ERR. -/
def ErrorKind.code : ErrorKind → BitVec 3
  | .distanceOutOfRange => 1
  | .truncatedOpcode => 2
  | .outputOverflow => 3
  | .reservedOpcode => 4
  | .headerTooShort => 5

/-- STATUS of its fields: [7:4] reserved 0, [3] UNSUP, [2:0] ERR (R35). -/
def statusWord (err : BitVec 3) (unsup : Bool) : BitVec 8 := (0#4 ++ BitVec.ofBool unsup) ++ err

/-- STATUS.ERR. -/
def State.err (s : State) : Nat := (s.status.extractLsb' 0 3).toNat

/-- STATUS.UNSUP. -/
def State.unsup (s : State) : Bool := s.status.getLsbD 3

/-- STATUS[7:4]. -/
def State.statusReserved (s : State) : Nat := (s.status.extractLsb' 4 4).toNat

/-- BackrefExtend's registers: NA and SA grow, CHAIN_OPEN <- 1 (42_lz77_decoder.md R144). -/
def State.extendChain (dna dsa : Nat) (s : State) : State :=
  { s with na := s.na + dna, sa := s.sa + dsa, chainOpen := true }

/-- Backref's registers: NA <- 0, SA <- 0, CHAIN_OPEN <- 0 (R145). -/
def State.closeChain (s : State) : State := { s with na := 0, sa := 0, chainOpen := false }

/-- Stop's flag: STOP_SEEN <- 1 (R146). -/
def State.noteStop (s : State) : State := { s with stopSeen := true }

/-- The end of a literal run: LIT_ACTIVE <- 0 (41_lz77_encoder.md R127). -/
def State.endLiteralRun (s : State) : State := { s with litActive := false }

end Sys2Proof.Machine
end

