-- ==== Sys2Proof/Machine/Params.lean ====
section
/-! DEFINITION. The fixed parameters of 00_scope.md R6, under the spec's own names, and the static dictionary. -/

namespace Sys2Proof.Machine

/-- CTX_LEN: the context buffer's length in bytes. -/
abbrev ctxLen : Nat := 48
/-- HDR_MIN: the minimum header length in bytes. -/
abbrev hdrMin : Nat := 40
/-- SRC_OFF: the first header byte of the source address. -/
abbrev srcOff : Nat := 8
/-- DST_OFF: the first header byte of the destination address. -/
abbrev dstOff : Nat := 24
/-- ADDR_LEN: the length of each address field. -/
abbrev addrLen : Nat := 16
/-- STATIC_OFF: the first context byte of the static dictionary. -/
abbrev staticOff : Nat := 32
/-- WIN_BASE: the window and output position of payload byte 0. -/
abbrev winBase : Nat := 48
/-- ZRUN_MIN: the smallest zero-run count. -/
abbrev zrunMin : Nat := 2
/-- ZRUN_MAX: the largest zero-run count. -/
abbrev zrunMax : Nat := 17
/-- LIT_MAX: the largest literal-run count. -/
abbrev litMax : Nat := 127
/-- MATCH_MIN: the minimum back-reference length. -/
abbrev matchMin : Nat := 2
/-- SHORT_N_MAX: the largest n = length − 2 of a one-byte Backref. -/
abbrev shortNMax : Nat := 7
/-- SHORT_S_MAX: the largest encoder s of a one-byte Backref. -/
abbrev shortSMax : Nat := 9
/-- NEAR_DIST: a 2-byte match is taken only at a distance below this. -/
abbrev nearDist : Nat := 10
/-- EXT_N_STEP: the length added by a BackrefExtend byte with bit 4 set. -/
abbrev extNStep : Nat := 8
/-- EXT_S_UNIT: the distance added per unit of a BackrefExtend low nibble. -/
abbrev extSUnit : Nat := 8
/-- EXT_S_FULL: the distance added by a BackrefExtend byte with low nibble 0xF. -/
abbrev extSFull : Nat := 120

/-- STATIC_DICT, the 16-byte static dictionary (R6, 40_dictionary_builder.md R100). -/
def staticDict : List Byte :=
  [0x16, 0xfe, 0xfd, 0x17, 0xfe, 0xfd, 0x00, 0x01, 0x00, 0x00, 0x00, 0x00, 0x00, 0x01, 0x00, 0x00]

end Sys2Proof.Machine
end

