-- ==== Sys2Proof/Machine/Ops.lean ====
section
/-! DEFINITION. The operations every engine shares: lengths and cursors, MemRead, MemWrite and Append (00_scope.md
R11), copies, the capacity check, `raise` (60_exceptions.md R178) and a command's completion. -/

namespace Sys2Proof.Machine

/-! ### Views -/

/-- The bytes of an address space (20_memory.md R50); PAY_OUT = OUT[48..CUR), where CUR = len(OUT) (10_state.md R30). -/
def State.space (s : State) : Space → List Byte
  | .hdr => s.hdr
  | .ctx => s.ctx
  | .payIn => s.payIn
  | .win => s.win
  | .strOut => s.strOut
  | .strIn => s.strIn
  | .out => s.out
  | .payOut => s.out.drop winBase

/-- OLEN, the length of STR_OUT (10_state.md R26). -/
def State.olen (s : State) : Nat := s.strOut.length

/-- PLEN, the length of PAY_IN (R24). -/
def State.plen (s : State) : Nat := s.payIn.length

/-- SLEN, the length of STR_IN (R29). -/
def State.slen (s : State) : Nat := s.strIn.length

/-- P = I + 48, the window position of payload byte I: "P is derived, not stored" (R24). -/
def State.pos (s : State) : Nat := s.i + winBase

/-- PAY_OUT = OUT[48..CUR) (R34, R50). -/
def State.payOut (s : State) : List Byte := s.space .payOut

/-! ### The canonical form of a space -/

/-- A space as the list of its (index, byte) cells, in rising order. An index it does not list holds no byte. -/
def State.cells (s : State) (sp : Space) : List Host.Cell := (s.space sp).zipIdx.map fun c => (c.2, c.1)

/-- The canonical form of a space's cells: the indexes are 0, 1, ..., len − 1 in this order (R50). -/
def Memory.wf (m : List Host.Cell) : Bool := m.map Prod.fst == List.range m.length

/-! ### Accesses -/

/-- Why an operation does not complete: an error the spec raises (00_scope.md R11), or a stop of the model. -/
inductive Halt where
  /-- `raise E(info)` (60_exceptions.md R178). -/
  | raise (e : ErrorKind) (info : Nat)
  /-- The model stops (Fault). -/
  | stuck (f : Fault)
deriving DecidableEq, Repr

/-- The address space a destination is. -/
def Dest.space : Dest → Space
  | .ctx => .ctx
  | .strOut => .strOut
  | .out => .out

/-- Replace the bytes of a destination. -/
def State.setDest (d : Dest) (bs : List Byte) (s : State) : State :=
  match d with
  | .ctx => { s with ctx := bs }
  | .strOut => { s with strOut := bs }
  | .out => { s with out := bs }

/-- MemRead(sp, a, 1) (R11, 20_memory.md R55). -/
def memRead (sp : Space) (a : Nat) (s : State) : Except Halt Byte :=
  match (s.space sp)[a]? with
  | some b => .ok b
  | none => .error (.stuck (.noSuchByte sp a))

/-- A destination grows by some bytes. Where it is OUT, they are written at CUR, which grows by their number
(10_state.md R30, R34). -/
def State.extend (d : Dest) (bs : List Byte) (s : State) : State :=
  match d with
  | .ctx => s.setDest .ctx (s.ctx ++ bs)
  | .strOut => s.setDest .strOut (s.strOut ++ bs)
  | .out => { s.setDest .out (s.out ++ bs) with cur := s.cur + bs.length }

/-- Append(d, b) (R11): byte len(d) of d becomes b, and len(d) grows by 1. -/
def append (d : Dest) (b : Byte) (s : State) : State := s.extend d [b]

/-- MemWrite(d, a, 1, b) (R11): an index of d is rewritten in place, and the index len(d) is an Append. -/
def memWrite (d : Dest) (a : Nat) (b : Byte) (s : State) : Except Halt State :=
  if a < (s.space d.space).length then .ok (s.setDest d ((s.space d.space).set a b))
  else if a = (s.space d.space).length then .ok (append d b s)
  else .error (.stuck (.noSuchByte d.space a))

/-- Append each byte of a list, in order. -/
def appendAll (d : Dest) (bs : List Byte) (s : State) : State := bs.foldl (fun t b => append d b t) s

/-- `for t in 0 .. n−1: Append(d, MemRead(src, base + t, 1))`: one byte at a time in increasing order, each read after
the write before it (20_memory.md R55, R61; 42_lz77_decoder.md R149; 70_reset_and_hazards.md R194). -/
def copyInto (src : Space) (d : Dest) : Nat → Nat → State → Except Halt State
  | 0, _, s => .ok s
  | n + 1, base, s =>
    match memRead src base s with
    | .ok b => copyInto src d n (base + 1) (append d b s)
    | .error h => .error h

/-- Whether m is within a capacity of 00_scope.md R7. -/
def within (cap : Option Nat) (m : Nat) : Bool :=
  match cap with
  | none => true
  | some c => m ≤ c

/-- Room(m) (42_lz77_decoder.md R153). -/
def room (m : Nat) (s : State) : Except Halt Unit :=
  if within s.caps.maxPayloadOut (s.cur - winBase + m) then .ok () else .error (.raise .outputOverflow s.ip)

/-- `pc <- IP + n`. -/
def State.advance (n : Nat) (s : State) : State := { s with ip := s.ip + n }

/-! ### The end of a command -/

/-- Fault entry (60_exceptions.md R178): the command ends with STATUS.ERR and FAULT_POS written and no result, and the
destination buffers hold unspecified bytes (free values, log 6). `unsup` is STOP_SEEN in a DECOMPRESS, else 0. -/
def State.raise (e : ErrorKind) (info : Nat) (unsup : Bool) (s : State) : State :=
  { s with
    phase := .idle
    result := .none
    status := statusWord e.code unsup
    faultPos := info
    ctx := Config.unspecifiedBytes s.freeIdx
    strOut := Config.unspecifiedBytes (s.freeIdx + 1)
    out := Config.unspecifiedBytes (s.freeIdx + 2)
    freeIdx := s.freeIdx + 3 }

/-- A command completes: ERR = 0, UNSUP as given, its result returned (40_dictionary_builder.md R101, 41_lz77_encoder.md
R110, 42_lz77_decoder.md R148), and the core is idle. There is no return from a fault (60_exceptions.md R180): after
either end the host may issue a new command. -/
def State.finish (r : Result) (unsup : Bool) (s : State) : State :=
  { s with phase := .idle, result := r, status := statusWord 0 unsup }

/-- The step an operation from s makes: its state, the entry of the fault it raises, or a stop of the model.
DESIGN CHOICE (log 7): a fault is entered from s itself, so what the operation wrote to registers before it raised is
dropped. In a pass of COMPRESS these are Z, BEST_L, BEST_J and, in EmitLiteral, LIT_HDR and LIT_ACTIVE, which
41_lz77_encoder.md R119 writes before the Append that fails; the spec defines no register after a fault. -/
def settle (unsup : Bool) (s : State) : Except Halt State → Host.Outcome State Fault Refusal
  | .ok t => .next t
  | .error (.raise e info) => .next (s.raise e info unsup)
  | .error (.stuck f) => .fault f

end Sys2Proof.Machine
end

