-- ==== Sys2Proof/Machine/Builder.lean ====
section
/-! DEFINITION. The dictionary_builder (40_dictionary_builder.md). -/

namespace Sys2Proof.Machine

/-- `buildContext` (R101): the precondition's check (R103), then the source address, the destination address and the
static dictionary go to CTX, which is empty at the start of a command. -/
def buildContext (s : State) : Except Halt State :=
  if s.hdr.length < hdrMin then .error (.raise .headerTooShort s.hdr.length)
  else do
    let t ← copyInto .hdr .ctx addrLen srcOff s
    let u ← copyInto .hdr .ctx addrLen dstOff t
    pure (appendAll .ctx staticDict u)

end Sys2Proof.Machine
end

