-- ==== Sys2Proof/Machine/Commands.lean ====
section
/-! DEFINITION. The command interface: the buffers of a command (20_memory.md R63), the start of BUILD, COMPRESS and
DECOMPRESS (10_state.md R21, R40), and the end of a stream (42_lz77_decoder.md R148). -/

namespace Sys2Proof.Machine

/-- The storage an input buffer occupies. -/
def HostBuffer.storage (b : HostBuffer) : HostStorage := { base := b.base, size := b.bytes.length }

/-- Whether two ranges of the host's storage share a byte. -/
def HostStorage.overlaps (a b : HostStorage) : Bool := max a.base b.base < min (a.base + a.size) (b.base + b.size)

/-- The storage of a command's buffers (R63): its inputs and its destination. -/
def Command.buffers : Command → List HostStorage
  | .build h d => [h.storage, d]
  | .compress h p d => [h.storage, p.storage, d]
  | .decompress h i d => [h.storage, i.storage, d]

/-- Whether some two of a list of ranges overlap. -/
def anyOverlap : List HostStorage → Bool
  | [] => false
  | r :: rs => rs.any r.overlaps || anyOverlap rs

/-- The header operand. -/
def Command.header : Command → List Byte
  | .build h _ => h.bytes
  | .compress h _ _ => h.bytes
  | .decompress h _ _ => h.bytes

/-- PAY_IN, or no bytes where the command has none. -/
def Command.payload : Command → List Byte
  | .build _ _ => []
  | .compress _ p _ => p.bytes
  | .decompress _ _ _ => []

/-- STR_IN, or no bytes where the command has none. -/
def Command.stream : Command → List Byte
  | .build _ _ => []
  | .compress _ _ _ => []
  | .decompress _ i _ => i.bytes

/-- The state at the start of a command: its operands, and every register at its initial value (10_state.md R22, R40). -/
def State.initial (c : Command) (s : State) : State :=
  { s with
    phase := .idle
    result := .none
    hdr := c.header
    ctx := []
    payIn := c.payload
    win := []
    strOut := []
    strIn := c.stream
    out := []
    i := 0
    litActive := false
    litHdr := 0
    z := 0
    bestL := 0
    bestJ := 0
    ip := 0
    cur := winBase
    na := 0
    sa := 0
    chainOpen := false
    stopSeen := false
    status := 0
    faultPos := 0 }

/-- What follows the builder: BUILD completes with CTX (R101); COMPRESS sets WIN <- CTX ‖ PAY_IN and enters its loop
(R110, R111); DECOMPRESS sets OUT <- CTX, whose length CUR already is, and enters its loop (R140). -/
def State.begin (c : Command) (s : State) : State :=
  match c with
  | .build _ _ => s.finish (.context s.ctx) false
  | .compress _ _ _ => { s with win := s.ctx ++ s.payIn, phase := .encoding }
  | .decompress _ _ _ => { s with out := s.ctx, phase := .decoding }

/-- The start of a command: overlapping buffers are refused (R63), then the builder runs (R105). -/
def startCommand (c : Command) (s : State) : Host.Outcome State Fault Refusal :=
  if anyOverlap c.buffers then .refused .overlappingBuffers
  else
    settle false (s.initial c) do
      let t ← buildContext (s.initial c)
      pure (t.begin c)

/-- EndOfStream (42_lz77_decoder.md R148): TruncatedOpcode(SLEN) inside an open chain, else DECOMPRESS completes with
PAY_OUT and STATUS.UNSUP <- STOP_SEEN. -/
def endOfStream (s : State) : Host.Outcome State Fault Refusal :=
  settle s.stopSeen s
    (if s.chainOpen then .error (.raise .truncatedOpcode s.slen)
     else .ok (s.finish (.payload s.payOut) s.stopSeen))

/-- The opcode at IP (42_lz77_decoder.md R141), none at the end of the stream. A LiteralRun cut short is fetched with
the data bytes there are; its own rule raises TruncatedOpcode (R142). -/
def fetch (s : State) : Option Instr :=
  match decode (s.strIn.drop s.ip) with
  | .ok (i, _) => some i
  | .error (.truncated i) => some i
  | .error .endOfStream => none

end Sys2Proof.Machine
end

