-- ==== Sys2Proof/Machine/Operands.lean ====
section
/-! DEFINITION. Operand assembly, 30_encoding.md R79. Every operand is a zero-extended natural; LiteralRun's k and
ZeroRun's count are the operands of their constructors (the decoder adds ZeroRun's 2). -/

namespace Sys2Proof.Machine

/-- BackrefExtend's Δna: `b[4] << 3`. -/
def extLength (f : Nat) : Nat := f <<< 3

/-- BackrefExtend's Δsa: `b[3:0] << 3`. -/
def extDistance (v : Nat) : Nat := v <<< 3

/-- Backref's length n: `NA + b[5:3] + 2`. -/
def refLength (m : Nat) (s : State) : Nat := s.na + m + 2

/-- Backref's distance s: `b[2:0] + SA + n`. -/
def refDistance (m q : Nat) (s : State) : Nat := q + s.sa + refLength m s

end Sys2Proof.Machine
end

