-- ==== Sys2Proof/Machine/Backrefs.lean ====
section
/-! DEFINITION. BackrefExtend and Backref (42_lz77_decoder.md R144, R145). -/

namespace Sys2Proof.Machine

/-- BackrefExtend (R144). -/
def execBrext (f v : Nat) (s : State) : Host.Outcome State Fault Refusal :=
  settle s.stopSeen s (.ok ((s.extendChain (extLength f) (extDistance v)).advance 1))

/-- Backref's first check: DistanceOutOfRange(IP) when the source index CUR − s would be negative (R145, R171). -/
def needDistance (d : Nat) (s : State) : Except Halt Unit :=
  if d > s.cur then .error (.raise .distanceOutOfRange s.ip) else .ok ()

/-- Backref (R145): n bytes from distance s are copied to OUT, and the chain is closed. -/
def execBref (m q : Nat) (s : State) : Host.Outcome State Fault Refusal :=
  settle s.stopSeen s do
    needDistance (refDistance m q s) s
    room (refLength m s) s
    let t ← copyInto .out .out (refLength m s) (s.cur - refDistance m q s) s
    pure (t.closeChain.advance 1)

end Sys2Proof.Machine
end

