-- ==== Sys2Proof/Machine/Markers.lean ====
section
/-! DEFINITION. Stop (42_lz77_decoder.md R146) and the reserved bytes (R147). -/

namespace Sys2Proof.Machine

/-- Stop (R146): a no-op that is reported (60_exceptions.md R174); decoding continues. -/
def execStop (s : State) : Host.Outcome State Fault Refusal := settle s.stopSeen s (.ok (s.noteStop.advance 1))

/-- A reserved leading byte raises ReservedOpcode(IP), always (R147, 60_exceptions.md R175). -/
def raiseReserved (s : State) : Host.Outcome State Fault Refusal :=
  settle s.stopSeen s (.error (.raise .reservedOpcode s.ip))

/-- The reserved byte 0x91 (R147). -/
def execReserved91 (s : State) : Host.Outcome State Fault Refusal := raiseReserved s

/-- The reserved bytes 0x92 and 0x93 (R147). -/
def execReserved92 (_x : Nat) (s : State) : Host.Outcome State Fault Refusal := raiseReserved s

/-- The reserved bytes 0x94 to 0x97 (R147). -/
def execReserved94 (_x : Nat) (s : State) : Host.Outcome State Fault Refusal := raiseReserved s

/-- The reserved bytes 0x98 to 0x9F (R147). -/
def execReserved98 (_x : Nat) (s : State) : Host.Outcome State Fault Refusal := raiseReserved s

end Sys2Proof.Machine
end

