-- ==== Sys2Proof/Machine/Runs.lean ====
section
/-! DEFINITION. LiteralRun and ZeroRun (42_lz77_decoder.md R142, R143). -/

namespace Sys2Proof.Machine

/-- LiteralRun's first check: TruncatedOpcode(IP) when fewer than k data bytes remain (R142). -/
def needData (k : Nat) (s : State) : Except Halt Unit :=
  if s.ip + 1 + k > s.slen then .error (.raise .truncatedOpcode s.ip) else .ok ()

/-- LiteralRun (R142): the k data bytes go to OUT, IP moves past them. -/
def execLit (k : Nat) (ds : List Byte) (s : State) : Host.Outcome State Fault Refusal :=
  settle s.stopSeen s do
    needData k s
    room k s
    pure ((appendAll .out ds s).advance (1 + k))

/-- ZeroRun (R143): c zero bytes go to OUT. -/
def execZrun (c : Nat) (s : State) : Host.Outcome State Fault Refusal :=
  settle s.stopSeen s do
    room c s
    pure ((appendAll .out (List.replicate c 0) s).advance 1)

end Sys2Proof.Machine
end

