-- ==== Sys2Proof/Machine/Dispatch.lean ====
section
/-! DEFINITION. One arm per constructor of Instr, one direct call of its meaning (42_lz77_decoder.md R141). -/

namespace Sys2Proof.Machine

def exec (i : Instr) (s : State) : Host.Outcome State Fault Refusal :=
  match i with
  | .lit k ds => Sys2Proof.Machine.execLit k ds s
  | .zrun c => Sys2Proof.Machine.execZrun c s
  | .stop => Sys2Proof.Machine.execStop s
  | .reserved91 => Sys2Proof.Machine.execReserved91 s
  | .reserved92 x => Sys2Proof.Machine.execReserved92 x s
  | .reserved94 x => Sys2Proof.Machine.execReserved94 x s
  | .reserved98 x => Sys2Proof.Machine.execReserved98 x s
  | .brext f v => Sys2Proof.Machine.execBrext f v s
  | .bref m q => Sys2Proof.Machine.execBref m q s

end Sys2Proof.Machine
end

