-- ==== Sys2Proof/Machine/Encoder.lean ====
section
/-! DEFINITION. The lz77_encoder (41_lz77_encoder.md): match search, selection, emission and the main loop's pass. -/

namespace Sys2Proof.Machine

/-! ### Candidates (R113–R117) -/

/-- ZeroRunLength's loop: Z grows while PAY_IN[I + Z] is a zero byte, at most `fuel` times. -/
def zeroRunFrom (pay : List Byte) (i : Nat) : Nat → Nat → Nat
  | 0, z => z
  | fuel + 1, z => if pay[i + z]? = some 0 then zeroRunFrom pay i fuel (z + 1) else z

/-- ZeroRunLength(I) (R113): capped at 17 and bounded by the payload's end. -/
def zeroRunLength (pay : List Byte) (i : Nat) : Nat := zeroRunFrom pay i zrunMax 0

/-- The start condition of R114, for j ≤ p − 2: two payload bytes remain and both agree with the window at j. -/
def isCandidate (win pay : List Byte) (i j : Nat) : Bool :=
  i + 1 < pay.length && win[j]? == pay[i]? && win[j + 1]? == pay[i + 1]?

/-- The extension loop of R115 from length L, at most `fuel` times. -/
def extendMatch (win pay : List Byte) (i p j : Nat) : Nat → Nat → Nat
  | 0, l => l
  | fuel + 1, l =>
    if i + l < pay.length ∧ j + l < p ∧ win[j + l]? = pay[i + l]? then extendMatch win pay i p j fuel (l + 1) else l

/-- The match length from a candidate j (R115): L starts at 2, and the payload's end stops it. -/
def matchLength (win pay : List Byte) (i p j : Nat) : Nat := extendMatch win pay i p j pay.length matchMin

/-- One candidate of R116: a later match that ties the best length replaces it (last-longest wins). -/
def considerStart (win pay : List Byte) (i p : Nat) (best : Nat × Nat) (j : Nat) : Nat × Nat :=
  if isCandidate win pay i j && best.1 ≤ matchLength win pay i p j then (matchLength win pay i p j, j) else best

/-- LongestMatch(I) as (BEST_L, BEST_J) (R114–R116): every j from 0 to p − 2, in increasing order. -/
def longestMatch (win pay : List Byte) (i p : Nat) : Nat × Nat :=
  (List.range (p - 1)).foldl (considerStart win pay i p) (0, 0)

/-! ### Selection (R118) -/

/-- The three outcomes of R118. -/
inductive Choice where
  | backref | zeroRun | literal
deriving DecidableEq, Repr

/-- Select(BEST_L, Z, d) (R118). -/
def select (bestL z d : Nat) : Choice :=
  if bestL > z ∧ ((bestL < 3 ∧ d < nearDist) ∨ bestL > 2) then .backref
  else if z > 1 then .zeroRun
  else .literal

/-! ### Emission (R119–R127) -/

/-- Append(STR_OUT, b), which raises OutputOverflow(I) at the capacity (R130). -/
def emit (b : Byte) (s : State) : Except Halt State :=
  if within s.caps.maxStreamOut (s.olen + 1) then .ok (append .strOut b s) else .error (.raise .outputOverflow s.i)

/-- Append each byte of a list to STR_OUT, in order. -/
def emitAll : List Byte → State → Except Halt State
  | [], s => .ok s
  | b :: bs, s =>
    match emit b s with
    | .ok t => emitAll bs t
    | .error h => .error h

/-- The registers of a new literal run: LIT_HDR <- OLEN, LIT_ACTIVE <- 1 (R119). A pass that then overflows drops both
(log 7). -/
def State.openLiteralRun (s : State) : State := { s with litHdr := s.olen, litActive := true }

/-- A new literal run: its registers, and a count byte of 0 for now (R119). -/
def startLiteralRun (s : State) : Except Halt State := emit 0 s.openLiteralRun

/-- Whether the next literal extends the open run: LIT_ACTIVE = 1 and the run's count byte is not 127 (R119). -/
def extendsRun (s : State) : Except Halt Bool :=
  if s.litActive then
    match memRead .strOut s.litHdr s with
    | .ok count => .ok (count != BitVec.ofNat 8 litMax)
    | .error h => .error h
  else .ok false

/-- The state whose open run takes the next literal: a new run is started where the open one cannot (R119). -/
def openRun (s : State) : Except Halt State :=
  match extendsRun s with
  | .ok true => .ok s
  | .ok false => startLiteralRun s
  | .error h => .error h

/-- The open run's count byte, rewritten in place, grows by 1 (R119, 20_memory.md R65). -/
def bumpCount (s : State) : Except Halt State :=
  match memRead .strOut s.litHdr s with
  | .ok count => memWrite .strOut s.litHdr (count + 1) s
  | .error h => .error h

/-- EmitLiteral(x) (R119): a new run when none is open or the open one holds 127 bytes; x is appended and the run's
count byte rewritten. -/
def emitLiteral (x : Byte) (s : State) : Except Halt State := do
  let t ← openRun s
  let u ← emit x t
  bumpCount u

/-- EmitZeroRun(Z) (R120). -/
def emitZeroRun (z : Nat) (s : State) : Except Halt State := do
  let t ← emit (BitVec.ofNat 8 (0x80 ||| (z - 2))) s
  pure t.endLiteralRun

/-- EmitLongBackref, step 1 (R123), at most `fuel` full distance bytes: the bytes, then what is left of N and S. -/
def fullDistanceBytes : Nat → Nat → Nat → List Byte × Nat × Nat
  | 0, nr, sr => ([], nr, sr)
  | fuel + 1, nr, sr =>
    if sr ≥ 128 then
      let (b, nr') := if nr ≥ extNStep then (0xAF ||| 0x10, nr - extNStep) else (0xAF, nr)
      let (bs, left) := fullDistanceBytes fuel nr' (sr - extSFull)
      (b :: bs, left)
    else ([], nr, sr)

/-- EmitLongBackref, step 2 (R124): the final distance byte, then what is left of N and S. -/
def finalDistanceByte (nr sr : Nat) : Byte × Nat × Nat :=
  if nr ≥ extNStep then (BitVec.ofNat 8 (0xA0 ||| (sr >>> 3) ||| 0x10), nr - extNStep, sr &&& 7)
  else (BitVec.ofNat 8 (0xA0 ||| (sr >>> 3)), nr, sr &&& 7)

/-- EmitLongBackref, step 3 (R125), at most `fuel` length fillers: the bytes, then what is left of N. -/
def lengthFillers : Nat → Nat → List Byte × Nat
  | 0, nr => ([], nr)
  | fuel + 1, nr =>
    if nr ≥ extNStep then
      let (bs, left) := lengthFillers fuel (nr - extNStep)
      (0xB0 :: bs, left)
    else ([], nr)

/-- The terminal Backref byte (R122, R126). -/
def terminalByte (nr sr : Nat) : Byte := BitVec.ofNat 8 (0xC0 ||| (nr <<< 3) ||| sr)

/-- EmitLongBackref(N, S) (R123–R126) as the bytes it appends. -/
def longBackrefBytes (n s : Nat) : List Byte :=
  let (full, n1, s1) := fullDistanceBytes s n s
  let (last, n2, s2) := finalDistanceByte n1 s1
  let (fill, n3) := lengthFillers n2 n2
  full ++ [last] ++ fill ++ [terminalByte n3 s2]

/-- EmitBackref(L, d) (R121) as the bytes it appends: N = L − 2, s = d − N and S = s − 2; the short form of R122 when
N ≤ 7 and s ≤ 9, else the long form. -/
def backrefBytes (l d : Nat) : List Byte :=
  if l - 2 ≤ shortNMax ∧ d - (l - 2) ≤ shortSMax then [terminalByte (l - 2) (d - (l - 2) - 2)]
  else longBackrefBytes (l - 2) (d - (l - 2) - 2)

/-- EmitBackref(L, d) (R121, R127). -/
def emitBackref (l d : Nat) (s : State) : Except Halt State := do
  let t ← emitAll (backrefBytes l d) s
  pure t.endLiteralRun

/-! ### The main loop (R112, R128, R129) -/

/-- Advance (R128): I <- I + n. -/
def State.consume (n : Nat) (s : State) : State := { s with i := s.i + n }

/-- The match state of payload index I, recomputed from scratch (R112, 10_state.md R28). -/
def scan (s : State) : State :=
  { s with
    z := zeroRunLength s.payIn s.i
    bestL := (longestMatch s.win s.payIn s.i s.pos).1
    bestJ := (longestMatch s.win s.payIn s.i s.pos).2 }

/-- The emission and advance of R112 for what R118 chose, on a state whose match state is scanned. -/
def emitChoice (c : Choice) (s : State) : Except Halt State :=
  match c with
  | .backref => do
    let t ← emitBackref s.bestL (s.pos - s.bestJ) s
    pure (t.consume s.bestL)
  | .zeroRun => do
    let t ← emitZeroRun s.z s
    pure (t.consume s.z)
  | .literal => do
    let x ← memRead .payIn s.i s
    let t ← emitLiteral x s
    pure (t.consume 1)

/-- EncodeStep (R112): one pass of the main loop at payload index I. -/
def encodeStep (s : State) : Except Halt State :=
  emitChoice (select (scan s).bestL (scan s).z (s.pos - (scan s).bestJ)) (scan s)

/-- One step of a running COMPRESS (R110): a pass while I < PLEN, then its completion with STATUS = 0. A fault leaves
STATUS.UNSUP = 0 (60_exceptions.md R178). DESIGN CHOICE (log 7): after the fault of a pass, Z, BEST_L, BEST_J, LIT_HDR
and LIT_ACTIVE hold what they held before the pass. -/
def runEncoder (s : State) : Host.Outcome State Fault Refusal :=
  if s.i < s.plen then settle false s (encodeStep s) else .next (s.finish (.stream s.strOut) false)

end Sys2Proof.Machine
end

