-- ==== Sys2Proof/Machine/Step.lean ====
section
/-! DEFINITION. One step of the core (10_state.md R20, log 1): an idle core takes the host's next command or waits;
COMPRESS makes one pass of its loop; DECOMPRESS runs one opcode, or meets the end of its stream. -/

namespace Sys2Proof.Machine

def step (s : State) : Host.Outcome State Fault Refusal :=
  match s.phase with
  | .idle =>
    match s.pending with
    | [] => .next s
    | c :: rest => startCommand c { s with pending := rest }
  | .encoding => runEncoder s
  | .decoding =>
    match fetch s with
    | some i => exec i s
    | none => endOfStream s

/-- The header of the DECOMPRESS that withFetchWord stands for: 40 zero bytes (log 11). -/
def loaderHeader : List Byte := List.replicate hdrMin 0

/-- The state a host brings the core to by issuing a DECOMPRESS of an empty stream under `loaderHeader` (log 11). -/
def State.loaded (s : State) : State :=
  match startCommand (.decompress ⟨0, loaderHeader⟩ ⟨hdrMin, []⟩ ⟨hdrMin, 0⟩) s with
  | .next t => t
  | .fault _ => s
  | .refused _ => s

/-- s with the opcode of wordBytes nbits w standing in STR_IN at IP. In a running DECOMPRESS only those bytes of STR_IN change;
else the host has issued a DECOMPRESS whose stream is that opcode (log 11). -/
def State.withFetchWord (s : State) (nbits w : Nat) : State :=
  let t := if s.phase = .decoding then s else s.loaded
  { t with
    strIn := t.strIn.take t.ip ++ List.replicate (t.ip - t.slen) 0 ++ wordBytes nbits w
      ++ t.strIn.drop (t.ip + (wordBytes nbits w).length) }

end Sys2Proof.Machine
end

