-- ==== Sys2Proof/Machine/Assembler.lean ====
section
/-! DEFINITION. Streams of opcodes (30_encoding.md R70) and the pseudo-instructions of R83. -/

namespace Sys2Proof.Machine

/-- The stream of a sequence of opcodes: no gaps, no header, no end marker (R70). -/
def assemble (is : List Instr) : List Byte := is.flatMap encode

/-- At most `fuel` opcodes read one after another, until the stream is used up (R70). -/
def disassembleFrom : Nat → List Byte → Except DecodeError (List Instr)
  | _, [] => .ok []
  | 0, b :: rest => .error (.truncated (classify b rest))
  | fuel + 1, b :: rest =>
    match decode (b :: rest) with
    | .error e => .error e
    | .ok (i, rest') =>
      match disassembleFrom fuel rest' with
      | .ok is => .ok (i :: is)
      | .error e => .error e

/-- The opcodes of a stream. Each takes at least one byte, so the stream's length is enough fuel. -/
def disassemble (bs : List Byte) : Except DecodeError (List Instr) := disassembleFrom bs.length bs

/-- The pseudo-instructions of R83. -/
inductive Pseudo where
  /-- `literal d1, ..., dm`, m ≥ 1. -/
  | literal (ds : List Byte)
  /-- `zeros c`, 2 ≤ c ≤ 17. -/
  | zeros (c : Nat)
  /-- `backref L, d`, L ≥ 2, d ≥ L. -/
  | backref (l d : Nat)
deriving DecidableEq, Repr

/-- The operand constraints of R83. -/
def Pseudo.wellFormed : Pseudo → Bool
  | .literal ds => 1 ≤ ds.length
  | .zeros c => 2 ≤ c && c ≤ 17
  | .backref l d => 2 ≤ l && l ≤ d

/-- Literal runs of 127 bytes for each full block, then one for the remainder (R83, 41_lz77_encoder.md R119). -/
def literalRuns : Nat → List Byte → List Instr
  | 0, _ => []
  | fuel + 1, ds =>
    if ds.length = 0 then []
    else .lit (min litMax ds.length) (ds.take litMax) :: literalRuns fuel (ds.drop litMax)

/-- The full distance opcodes of 41_lz77_encoder.md R123, then what is left of N and S. -/
def fullDistanceOps : Nat → Nat → Nat → List Instr × Nat × Nat
  | 0, nr, sr => ([], nr, sr)
  | fuel + 1, nr, sr =>
    if sr < 128 then ([], nr, sr)
    else
      let f := if nr < extNStep then 0 else 1
      let (is, left) := fullDistanceOps fuel (nr - f * extNStep) (sr - extSFull)
      (.brext f 15 :: is, left)

/-- The chain of R121 to R126 as opcodes, with N = L − 2 and S = d − L. -/
def backrefOps (l d : Nat) : List Instr :=
  if l - 2 ≤ shortNMax ∧ d - l ≤ 7 then [.bref (l - 2) (d - l)]
  else
    let (full, nr, sr) := fullDistanceOps (d - l) (l - 2) (d - l)
    let f := if nr < extNStep then 0 else 1
    full ++ [.brext f (sr / 8)] ++ List.replicate ((nr - f * extNStep) / extNStep) (.brext 1 0)
      ++ [.bref (nr % extNStep) (sr % 8)]

/-- The expansion of a pseudo-instruction (R83). -/
def Pseudo.expand : Pseudo → List Instr
  | .literal ds => literalRuns ds.length ds
  | .zeros c => [.zrun c]
  | .backref l d => backrefOps l d

end Sys2Proof.Machine
end

