-- ==== Sys2Proof/Safety.lean ====
section
/-! DEFINITION. The terms the claims are stated in: the context a header gives, room for a write, the entry of a
fault, what a match is, the encoder's opcode order, and the invariant of a safe run. -/

namespace Sys2Proof.Machine

/-- k steps of the machine (Host.Core.run of the core), stopping at the first fault or refusal. -/
def runSteps (k : Nat) (s : State) : Host.Outcome State Fault Refusal := Host.Core.run Sys2Proof.core k s

/-- The core is idle and the host has no further command. -/
def State.done (s : State) : Prop := s.phase = .idle ∧ s.pending = []

/-- The 48 context bytes of a header (40_dictionary_builder.md R101): HDR[8..24), HDR[24..40), STATIC_DICT. -/
def contextOf (hdr : List Byte) : List Byte := (hdr.drop 8).take 16 ++ (hdr.drop 24).take 16 ++ staticDict

/-- A capacity of 00_scope.md R7 admits m bytes; `none` (unbounded) admits any number. -/
def Fits (cap : Option Nat) (m : Nat) : Prop := ∀ c, cap = some c → m ≤ c

/-- The decoder has room for m more payload bytes (42_lz77_decoder.md R153). -/
def State.HasRoom (s : State) (m : Nat) : Prop := Fits s.caps.maxPayloadOut (s.cur - 48 + m)

/-- t is s after the entry of a fault (60_exceptions.md R178): STATUS is the code with UNSUP in bit 3, FAULT_POS is
pos, there is no result and the core is idle. The destination buffers of t, and the counter of the free values, are
any; every other field is s's (log 7). -/
def FaultEntry (s t : State) (code pos : Nat) (unsup : Bool) : Prop :=
  t = { s with
    phase := .idle
    result := .none
    status := BitVec.ofNat 8 (code + if unsup then 8 else 0)
    faultPos := pos
    ctx := t.ctx
    strOut := t.strOut
    out := t.out
    freeIdx := t.freeIdx }

/-- A command's buffers are pairwise disjoint (20_memory.md R63): no address of the host's storage lies in two. -/
def Command.Disjoint (c : Command) : Prop :=
  c.buffers.Pairwise fun r q =>
    ∀ a, ¬ (r.base ≤ a ∧ a < r.base + r.size ∧ q.base ≤ a ∧ a < q.base + q.size)

/-- An idle core whose host issues c next, and then the commands of rest. -/
def State.Issues (s : State) (c : Command) (rest : List Command) : Prop := s.phase = .idle ∧ s.pending = c :: rest

/-- R118's condition for a match of length l at distance d over a zero run of length z. -/
def TakesMatch (l z d : Nat) : Prop := l > z ∧ ((l < 3 ∧ d < 10) ∨ l > 2)

/-- COMPRESS is running and has a payload byte to encode (41_lz77_encoder.md R112). -/
def State.HasByte (s : State) : Prop := s.phase = .encoding ∧ s.i < s.plen

/-- The zero-run length at payload index I (R113). -/
def State.zNow (s : State) : Nat := zeroRunLength s.payIn s.i

/-- The best match at payload index I, as (BEST_L, BEST_J) (R116). -/
def State.bestNow (s : State) : Nat × Nat := longestMatch s.win s.payIn s.i (s.i + 48)

/-- The match distance d = p − BEST_J (R117). -/
def State.distNow (s : State) : Nat := s.i + 48 - s.bestNow.2

/-- The next literal extends the open run (R119): a run is open, its count byte c is not 127. -/
def State.Extends (s : State) (c : Byte) : Prop := s.litActive = true ∧ s.strOut[s.litHdr]? = some c ∧ c ≠ 127

/-- The next literal starts a new run (R119): no run is open, or the open one holds 127 bytes. -/
def State.StartsRun (s : State) : Prop := s.litActive = false ∨ s.strOut[s.litHdr]? = some 127

/-- How many bytes an opcode writes to OUT when it completes (42_lz77_decoder.md R142–R147). -/
def writtenBytes (i : Instr) (s : State) : Nat :=
  match i with
  | .lit k _ => k
  | .zrun c => c
  | .stop => 0
  | .reserved91 => 0
  | .reserved92 _ => 0
  | .reserved94 _ => 0
  | .reserved98 _ => 0
  | .brext _ _ => 0
  | .bref m _ => s.na + m + 2

/-- A match of length l at window position j for payload index i, with p = i + 48 (41_lz77_encoder.md R114, R115):
at least two bytes, inside the window below p, not past the payload's end, every byte equal. -/
def ValidMatch (win pay : List Byte) (i p j l : Nat) : Prop :=
  2 ≤ l ∧ j + l ≤ p ∧ i + l ≤ pay.length ∧ ∀ t, t < l → win[j + t]? = pay[i + t]?

/-- The sum of the lengths a chain of BackrefExtend opcodes adds to NA (42_lz77_decoder.md R144). -/
def chainLength : List (Nat × Nat) → Nat
  | [] => 0
  | (f, _) :: r => 8 * f + chainLength r

/-- The sum of the distances a chain of BackrefExtend opcodes adds to SA (R144). -/
def chainDistance : List (Nat × Nat) → Nat
  | [] => 0
  | (_, v) :: r => 8 * v + chainDistance r

/-- The opcode sequences of 41_lz77_encoder.md R131: literal counts from 1, no Stop, no reserved byte, no BackrefExtend
0xA0, and every BackrefExtend followed by a BackrefExtend or a Backref. -/
def encoderOps : List Instr → Bool
  | [] => true
  | .lit k _ :: r => 1 ≤ k && encoderOps r
  | .zrun _ :: r => encoderOps r
  | .bref _ _ :: r => encoderOps r
  | [.brext _ _] => false
  | .brext f v :: .brext f' v' :: r => (f != 0 || v != 0) && encoderOps (.brext f' v' :: r)
  | .brext f v :: .bref m q :: r => (f != 0 || v != 0) && encoderOps (.bref m q :: r)
  | _ :: _ => false

/-- The open literal run (41_lz77_encoder.md R119, 10_state.md R27): its count byte stands at LIT_HDR, holds 1 to 127
and equals the number of bytes that follow it up to the end of STR_OUT. -/
def State.LiteralRunOpen (s : State) : Prop :=
  ∃ c, s.strOut[s.litHdr]? = some c ∧ 1 ≤ c.toNat ∧ c.toNat ≤ 127 ∧ s.litHdr + 1 + c.toNat = s.olen

/-- What holds while any command runs: its context is its header's, nothing is reported yet (10_state.md R35, R40). -/
structure State.RunningInv (s : State) : Prop where
  header : 40 ≤ s.hdr.length
  context : s.ctx = contextOf s.hdr
  status : s.status = 0
  faultPos : s.faultPos = 0
  result : s.result = .none

/-- What holds in COMPRESS's loop (10_state.md R24–R27, 41_lz77_encoder.md R111, R119, R128, R130). -/
structure State.EncodingInv (s : State) : Prop extends s.RunningInv where
  index : s.i ≤ s.plen
  window : s.win = s.ctx ++ s.payIn
  literalRun : s.litActive = true → s.LiteralRunOpen
  capacity : Fits s.caps.maxStreamOut s.olen

/-- What holds in DECOMPRESS's loop (10_state.md R29–R34, 42_lz77_decoder.md R153): IP is within the stream, CUR is
len(OUT), OUT begins with CTX, NA and SA are multiples of 8 and are 0 outside a chain. -/
structure State.DecodingInv (s : State) : Prop extends s.RunningInv where
  pointer : s.ip ≤ s.slen
  cursor : s.cur = s.out.length
  prefix48 : s.out.take 48 = s.ctx
  length8 : 8 ∣ s.na
  distance8 : 8 ∣ s.sa
  chain : s.chainOpen = false → s.na = 0 ∧ s.sa = 0
  capacity : Fits s.caps.maxPayloadOut (s.cur - 48)

/-- What the host may read of an idle core (10_state.md R35, R36): STATUS holds a legal code and its reserved bits are
0; a fault leaves no result; FAULT_POS is 0 without a fault; UNSUP is 0 after BUILD and COMPRESS. -/
structure State.IdleInv (s : State) : Prop where
  reserved : s.statusReserved = 0
  code : s.err ≤ 5
  noResult : s.err ≠ 0 → s.result = .none
  noFaultPos : s.err = 0 → s.faultPos = 0
  context : ∀ bs, s.result = .context bs → s.unsup = false
  stream : ∀ bs, s.result = .stream bs → s.unsup = false

/-- The invariant of a safe run, by what the core is doing. -/
structure State.Inv (s : State) : Prop where
  idle : s.phase = .idle → s.IdleInv
  encoding : s.phase = .encoding → s.EncodingInv
  decoding : s.phase = .decoding → s.DecodingInv

end Sys2Proof.Machine
end

