-- ==== Sys2Proof/Certificates/Slice0/Obligations.lean ====
section
/-! DEFINITION. The statements for the provers. Each docstring names the rule of spec/ it formalises. Helper terms are
in Safety.lean. -/

open Sys2Proof Sys2Proof.Machine

/-! ### The opcode format (30_encoding.md) -/

/-- R73–R78, R82: decoding an encoded well-formed opcode gives it back, with every operand, whatever follows it. -/
def Obligations.DecodeOfEncode : Prop :=
  ∀ (i : Instr) (rest : List Byte), i.wellFormed = true → decode (encode i ++ rest) = .ok (i, rest)

/-- R70, R82: what the decoder reads is well-formed, and the bytes it read are that opcode's encoding. -/
def Obligations.DecodedBytesAreTheEncoding : Prop :=
  ∀ (bs rest : List Byte) (i : Instr), decode bs = .ok (i, rest) → i.wellFormed = true ∧ bs = encode i ++ rest

/-- R73–R78: words written out from the spec's formats decode to the opcodes they stand for. -/
def Obligations.SpecWordsDecode : Prop :=
  decode [0b00000010#8, 0xaa, 0xbb] = .ok (.lit 2 [0xaa, 0xbb], []) ∧
  decode [0b10001111#8] = .ok (.zrun 17, []) ∧
  decode [0b10010000#8] = .ok (.stop, []) ∧
  decode [0b10010001#8] = .ok (.reserved91, []) ∧
  decode [0b10010011#8] = .ok (.reserved92 1, []) ∧
  decode [0b10010110#8] = .ok (.reserved94 2, []) ∧
  decode [0b10011101#8] = .ok (.reserved98 5, []) ∧
  decode [0b10110100#8] = .ok (.brext 1 4, []) ∧
  decode [0b11110011#8] = .ok (.bref 6 3, [])

/-- R80: the complete map of the 256 values of a leading byte, by ranges. -/
def Obligations.LeadingByteMap : Prop :=
  ∀ (b : Byte) (rest : List Byte),
    (b.toNat ≤ 0x7F → classify b rest = .lit b.toNat (rest.take b.toNat)) ∧
    (0x80 ≤ b.toNat → b.toNat ≤ 0x8F → classify b rest = .zrun (b.toNat - 0x80 + 2)) ∧
    (b.toNat = 0x90 → classify b rest = .stop) ∧
    (b.toNat = 0x91 → classify b rest = .reserved91) ∧
    (0x92 ≤ b.toNat → b.toNat ≤ 0x93 → classify b rest = .reserved92 (b.toNat - 0x92)) ∧
    (0x94 ≤ b.toNat → b.toNat ≤ 0x97 → classify b rest = .reserved94 (b.toNat - 0x94)) ∧
    (0x98 ≤ b.toNat → b.toNat ≤ 0x9F → classify b rest = .reserved98 (b.toNat - 0x98)) ∧
    (0xA0 ≤ b.toNat → b.toNat ≤ 0xBF →
      classify b rest = .brext ((b.toNat - 0xA0) / 16) ((b.toNat - 0xA0) % 16)) ∧
    (0xC0 ≤ b.toNat → classify b rest = .bref ((b.toNat - 0xC0) / 8) ((b.toNat - 0xC0) % 8))

/-- R72: exactly one row of spec/opcode_table.json has a leading byte, and it is the row the decoder takes. -/
def Obligations.ExactlyOneTableRow : Prop :=
  ∀ (b : Byte) (rest : List Byte) (n : Nat) (r : OpcodeRow),
    opcodeTable[n]? = some r → (r.matches b = true ↔ n = (classify b rest).row)

/-- R71: an opcode's length is 1 + b for a leading byte b below 0x80 and 1 otherwise, and the decoder takes exactly those
bytes. The second clause, that the decoder rejects a LiteralRun cut short as `.truncated`, is the model's choice (log 14),
made for R142, whose rule then raises TruncatedOpcode. -/
def Obligations.LengthFromLeadingByte : Prop :=
  ∀ (b : Byte) (rest : List Byte),
    let len := if b.toNat ≤ 0x7F then 1 + b.toNat else 1
    (len ≤ rest.length + 1 → ∃ i, decode (b :: rest) = .ok (i, (b :: rest).drop len)) ∧
    (rest.length + 1 < len → ∃ i, decode (b :: rest) = .error (.truncated i))

/-- R79: the operands, assembled from the leading byte by the formulas the rule quotes. -/
def Obligations.OperandAssembly : Prop :=
  ∀ (b : Byte) (rest : List Byte) (s : State),
    (∀ k ds, classify b rest = .lit k ds → k = (b &&& 0x7F).toNat ∧ k = b.toNat ∧ k ≤ 127) ∧
    (∀ c, classify b rest = .zrun c → c = (b &&& 0x0F).toNat + 2 ∧ 2 ≤ c ∧ c ≤ 17) ∧
    (∀ f v, classify b rest = .brext f v →
      extLength f = (b &&& 0x10).toNat >>> 1 ∧ extDistance v = (b &&& 0x0F).toNat <<< 3 ∧
      (extLength f = 0 ∨ extLength f = 8) ∧ 8 ∣ extDistance v ∧ extDistance v ≤ 120) ∧
    (∀ m q, classify b rest = .bref m q →
      refLength m s = s.na + ((b &&& 0x38).toNat >>> 3) + 2 ∧
      refDistance m q s = (b &&& 0x07).toNat + s.sa + refLength m s ∧
      2 ≤ refLength m s ∧ refLength m s ≤ refDistance m q s)

/-- R70: a stream is its opcodes with no gaps, header or end marker, and splits back into exactly them. -/
def Obligations.StreamSplitsIntoItsOpcodes : Prop :=
  ∀ is : List Instr, (∀ i ∈ is, i.wellFormed = true) → disassemble (assemble is) = .ok is

/-- R83: the pseudo-instructions expand to well-formed opcodes, and `backref L, d` expands to the bytes the encoder
emits for a match of that length and distance. -/
def Obligations.PseudoExpansion : Prop :=
  (∀ p : Pseudo, p.wellFormed = true → ∀ i ∈ p.expand, i.wellFormed = true) ∧
  ∀ l d, 2 ≤ l → l ≤ d → assemble (Pseudo.expand (.backref l d)) = backrefBytes l d

/-! ### One step of DECOMPRESS (42_lz77_decoder.md) -/

/-- R141: in DECOMPRESS, a step runs the opcode whose bytes stand at IP: nothing stands around exec. An opcode cut
short by the end of the stream is run too (its rule raises TruncatedOpcode). -/
def Obligations.StepRunsTheDecodedOpcode : Prop :=
  ∀ (s : State) (i : Instr), s.phase = .decoding →
    (∀ rest, decode (s.strIn.drop s.ip) = .ok (i, rest) → step s = exec i s) ∧
    (decode (s.strIn.drop s.ip) = .error (.truncated i) → step s = exec i s)

/-- R141, R191 (the loading convention is log 11): a step from withFetchWord runs exactly the opcode the decoder
reads from the word. -/
def Obligations.FetchWordRunsItsOpcode : Prop :=
  ∀ (s : State) (nbits w : Nat), ∃ i, decodeTableWord nbits w = some i ∧
    step (s.withFetchWord nbits w) = exec i (s.withFetchWord nbits w)

/-- R148: at the end of the stream an open chain raises TruncatedOpcode(SLEN); otherwise DECOMPRESS completes with
the payload OUT[48..CUR), STATUS.ERR = 0 and STATUS.UNSUP = STOP_SEEN. -/
def Obligations.EndOfStreamResult : Prop :=
  ∀ s : State, s.phase = .decoding → s.ip = s.slen →
    (s.chainOpen = true → ∃ t, step s = .next t ∧ FaultEntry s t 2 s.slen s.stopSeen) ∧
    (s.chainOpen = false →
      step s = .next { s with
        phase := .idle, result := .payload (s.out.drop 48), status := if s.stopSeen then 8 else 0 })

/-! ### The opcodes -/

/-- R142: LiteralRun appends its k data bytes to OUT, moving CUR by k, and moves IP past them; fewer than k data bytes raise
TruncatedOpcode(IP), checked first, then a capacity exceeded raises OutputOverflow(IP). Everything else is unchanged. -/
def Obligations.LiteralRunResult : Prop :=
  ∀ (s : State) (k : Nat) (ds : List Byte),
    (s.ip + 1 + k ≤ s.slen → s.HasRoom k → ds.length = k →
      exec (.lit k ds) s = .next { s with out := s.out ++ ds, cur := s.cur + k, ip := s.ip + 1 + k }) ∧
    (s.slen < s.ip + 1 + k → ∃ t, exec (.lit k ds) s = .next t ∧ FaultEntry s t 2 s.ip s.stopSeen) ∧
    (s.ip + 1 + k ≤ s.slen → ¬ s.HasRoom k →
      ∃ t, exec (.lit k ds) s = .next t ∧ FaultEntry s t 3 s.ip s.stopSeen)

/-- R143: ZeroRun appends c zero bytes to OUT, moving CUR by c, or raises OutputOverflow(IP). Everything else is unchanged. -/
def Obligations.ZeroRunResult : Prop :=
  ∀ (s : State) (c : Nat),
    (s.HasRoom c →
      exec (.zrun c) s =
        .next { s with out := s.out ++ List.replicate c 0, cur := s.cur + c, ip := s.ip + 1 }) ∧
    (¬ s.HasRoom c → ∃ t, exec (.zrun c) s = .next t ∧ FaultEntry s t 3 s.ip s.stopSeen)

/-- R144: BackrefExtend adds 8·n to NA and 8·ssss to SA and sets CHAIN_OPEN. Everything else is unchanged. -/
def Obligations.BackrefExtendResult : Prop :=
  ∀ (s : State) (f v : Nat),
    exec (.brext f v) s =
      .next { s with na := s.na + 8 * f, sa := s.sa + 8 * v, chainOpen := true, ip := s.ip + 1 }

/-- R145: with n = NA + nnn + 2 and s = kkk + SA + n, Backref copies n bytes from distance s to OUT, moving CUR by n, and
clears NA, SA and CHAIN_OPEN; s > CUR raises DistanceOutOfRange(IP), checked first, then a capacity exceeded raises
OutputOverflow(IP). Everything else is unchanged. The premise CUR = len(OUT) is R30 (kept by every step:
CursorIsOutLength). -/
def Obligations.BackrefResult : Prop :=
  ∀ (s : State) (m q : Nat),
    let n := s.na + m + 2
    let d := q + s.sa + n
    (s.cur = s.out.length → d ≤ s.cur → s.HasRoom n →
      exec (.bref m q) s =
        .next { s with
          out := s.out ++ (s.out.drop (s.cur - d)).take n, cur := s.cur + n, na := 0, sa := 0, chainOpen := false,
          ip := s.ip + 1 }) ∧
    (s.cur < d → ∃ t, exec (.bref m q) s = .next t ∧ FaultEntry s t 1 s.ip s.stopSeen) ∧
    (d ≤ s.cur → ¬ s.HasRoom n → ∃ t, exec (.bref m q) s = .next t ∧ FaultEntry s t 3 s.ip s.stopSeen)

/-- R146: Stop sets STOP_SEEN and moves IP past itself; decoding continues and nothing else changes. -/
def Obligations.StopResult : Prop :=
  ∀ s : State, exec .stop s = .next { s with stopSeen := true, ip := s.ip + 1 }

/-- R147: every reserved byte raises ReservedOpcode(IP), in every state. -/
def Obligations.ReservedBytesRaise : Prop :=
  ∀ (s : State) (x : Nat) (i : Instr),
    i ∈ [Instr.reserved91, Instr.reserved92 x, Instr.reserved94 x, Instr.reserved98 x] →
      ∃ t, exec i s = .next t ∧ FaultEntry s t 4 s.ip s.stopSeen

/-- R149: s ≥ n always holds for a Backref, so the source range of one that executes ends at or before CUR. -/
def Obligations.BackrefSourceBelowCursor : Prop :=
  ∀ (s : State) (m q : Nat),
    refLength m s ≤ refDistance m q s ∧
    (refDistance m q s ≤ s.cur → s.cur - refDistance m q s + refLength m s ≤ s.cur)

/-- R194: the copy operation reads and writes one byte at a time in increasing order, each read after the write before
it: byte CUR + k of the result is byte base + k of the RESULT, also where the two ranges overlap. The premise
CUR = len(OUT) is R30. -/
def Obligations.CopyIsByteByByte : Prop :=
  ∀ (s : State) (n base : Nat), s.cur = s.out.length → base < s.cur →
    ∃ t, copyInto .out .out n base s = .ok t ∧ t = { s with out := t.out, cur := s.cur + n } ∧
      (∀ a, a < s.cur → t.out[a]? = s.out[a]?) ∧
      ∀ k, k < n → t.out[s.cur + k]? = t.out[base + k]?

/-- R151, R29, R30: every well-formed opcode, in every state where CUR is len(OUT) (R30), either advances IP by its length
and CUR by the bytes it writes, with nothing reported, or enters a fault at its own IP. -/
def Obligations.EveryOpcodeAdvancesOrFaults : Prop :=
  ∀ (i : Instr) (s : State), i.wellFormed = true → s.cur = s.out.length →
    ∃ t, exec i s = .next t ∧
      ((t.ip = s.ip + (encode i).length ∧ t.cur = s.cur + writtenBytes i s ∧ t.phase = s.phase ∧
          t.result = s.result ∧ t.status = s.status ∧ t.faultPos = s.faultPos) ∨
        ∃ code, 1 ≤ code ∧ code ≤ 4 ∧ FaultEntry s t code s.ip s.stopSeen)

/-- R51, R66: the decoder writes only OUT. Whatever an opcode does, HDR, PAY_IN, WIN and STR_IN keep every byte; if the
command goes on, so do CTX, STR_OUT and the old bytes of OUT. -/
def Obligations.OpcodesWriteOnlyOut : Prop :=
  ∀ (i : Instr) (s t : State), exec i s = .next t → s.phase = .decoding →
    (∀ sp a, sp = .hdr ∨ sp = .payIn ∨ sp = .win ∨ sp = .strIn → memRead sp a t = memRead sp a s) ∧
    (t.phase = .decoding →
      (∀ sp a, sp = .ctx ∨ sp = .strOut → memRead sp a t = memRead sp a s) ∧
      ∀ a, a < s.out.length → memRead .out a t = memRead .out a s)

/-- R152: a LiteralRun, ZeroRun or Stop leaves NA, SA and CHAIN_OPEN as they were, also when it faults. -/
def Obligations.ChainSurvivesOtherOpcodes : Prop :=
  ∀ (s t : State) (i : Instr) (k c : Nat) (ds : List Byte), i = .lit k ds ∨ i = .zrun c ∨ i = .stop →
    exec i s = .next t → t.na = s.na ∧ t.sa = s.sa ∧ t.chainOpen = s.chainOpen

/-- R33: nothing clears STOP_SEEN within a command, and only Stop sets it. -/
def Obligations.OnlyStopSetsStopSeen : Prop :=
  ∀ (i : Instr) (s t : State), exec i s = .next t → (t.stopSeen = true ↔ s.stopSeen = true ∨ i = .stop)

/-! ### Memory and registers -/

/-- R11, R55: a MemWrite moves exactly one byte: it reads back at its index, and every other index of the space and
every other space (but PAY_OUT, a part of OUT) reads as before. -/
def Obligations.MemWriteThenRead : Prop :=
  ∀ (d : Dest) (a : Nat) (b : Byte) (s t : State), memWrite d a b s = .ok t →
    memRead d.space a t = .ok b ∧
    (∀ a', a' ≠ a → memRead d.space a' t = memRead d.space a' s) ∧
    ∀ sp a', sp ≠ d.space → (d = .out → sp ≠ .payOut) → memRead sp a' t = memRead sp a' s

/-- R35, R170: the error codes, and the fields of STATUS whatever is written to it. -/
def Obligations.StatusFields : Prop :=
  (∀ (s : State) (e : ErrorKind) (pos : Nat) (u : Bool),
    (s.raise e pos u).err = e.code.toNat ∧ (s.raise e pos u).unsup = u ∧ (s.raise e pos u).statusReserved = 0 ∧
      (s.raise e pos u).faultPos = pos) ∧
  ErrorKind.code .distanceOutOfRange = 1 ∧ ErrorKind.code .truncatedOpcode = 2 ∧
  ErrorKind.code .outputOverflow = 3 ∧ ErrorKind.code .reservedOpcode = 4 ∧ ErrorKind.code .headerTooShort = 5

/-- R35, R36, R178: while a command runs, STATUS, FAULT_POS and the result stay; when it ends, either ERR is 0, there
is a result and FAULT_POS is unchanged, or ERR is 1 to 4 and there is none. -/
def Obligations.ReportsOnlyAtTheEnd : Prop :=
  ∀ s t : State, s.phase ≠ .idle → step s = .next t →
    (t.phase = s.phase ∧ t.status = s.status ∧ t.faultPos = s.faultPos ∧ t.result = s.result) ∨
    (t.phase = .idle ∧ t.err = 0 ∧ t.faultPos = s.faultPos ∧ t.result ≠ .none) ∨
    (t.phase = .idle ∧ 1 ≤ t.err ∧ t.err ≤ 4 ∧ t.result = .none)

/-- R7, R37: no step changes the capacities. -/
def Obligations.CapacitiesNeverChange : Prop :=
  ∀ s t : State, step s = .next t → t.caps = s.caps

/-- R50: while a command runs, nobody writes HDR, PAY_IN, WIN and STR_IN, and CTX stays unless the command faults. -/
def Obligations.InputsNeverWritten : Prop :=
  ∀ s t : State, s.phase ≠ .idle → step s = .next t →
    t.hdr = s.hdr ∧ t.payIn = s.payIn ∧ t.win = s.win ∧ t.strIn = s.strIn ∧ (t.err = 0 → t.ctx = s.ctx)

/-! ### Commands (10_state.md R20–R22, R40; 40_dictionary_builder.md) -/

/-- R190: after reset the core is idle, no command is running and there is no result the host can read. The model's choice:
that every address space is empty (log 8; R190 says only that no buffer belongs to the core), and that the host has no
command pending (log 2, log 11). -/
def Obligations.ResetIsIdle : Prop :=
  State.reset.phase = .idle ∧ State.reset.pending = [] ∧ State.reset.result = .none ∧
  ∀ sp, State.reset.space sp = []

/-- R63: a model refuses a command whose buffers overlap. The model's choice (log 5): the places of the buffers, that
BUILD's destination counts as a buffer, and that the refusal comes before the header check of R176. -/
def Obligations.OverlappingBuffersRefused : Prop :=
  ∀ (s : State) (c : Command) (rest : List Command), s.Issues c rest →
    (step s = .refused .overlappingBuffers ↔ ¬ c.Disjoint)

/-- R103, R176: a header under 40 bytes raises HeaderTooShort(len(HDR)): STATUS is 5, FAULT_POS the length, and there is
no result. -/
def Obligations.ShortHeaderFaults : Prop :=
  ∀ (s : State) (c : Command) (rest : List Command), s.Issues c rest → c.Disjoint → c.header.length < 40 →
    ∃ t, step s = .next t ∧ t.phase = .idle ∧ t.result = .none ∧ t.status = 5 ∧ t.faultPos = c.header.length ∧
      t.pending = rest ∧ t.caps = s.caps

/-- R101: BUILD completes with CTX = HDR[8..24) ‖ HDR[24..40) ‖ STATIC_DICT and STATUS = 0. -/
def Obligations.BuildResult : Prop :=
  ∀ (s : State) (h : HostBuffer) (d : HostStorage) (rest : List Command), s.Issues (.build h d) rest →
    (Command.build h d).Disjoint → 40 ≤ h.bytes.length →
    ∃ t, step s = .next t ∧ t.phase = .idle ∧ t.pending = rest ∧ t.status = 0 ∧ t.result = .context t.ctx ∧
      t.ctx.length = 48 ∧ (∀ k, k < 16 → t.ctx[k]? = h.bytes[8 + k]?) ∧
      (∀ k, k < 16 → t.ctx[16 + k]? = h.bytes[24 + k]?) ∧
      t.ctx.drop 32 = [0x16, 0xfe, 0xfd, 0x17, 0xfe, 0xfd, 0, 1, 0, 0, 0, 0, 0, 1, 0, 0] ∧
      t.caps = s.caps ∧ t.freeIdx = s.freeIdx

/-- R104: two BUILD commands on headers with equal bytes [8, 40) return the same context, whatever came before. -/
def Obligations.BuildDependsOnAddressesOnly : Prop :=
  ∀ (s s' t t' : State) (h h' : HostBuffer) (d d' : HostStorage) (rest rest' : List Command),
    s.Issues (.build h d) rest → s'.Issues (.build h' d') rest' →
    40 ≤ h.bytes.length → 40 ≤ h'.bytes.length → (∀ k, 8 ≤ k → k < 40 → h.bytes[k]? = h'.bytes[k]?) →
    step s = .next t → step s' = .next t' → t.result = t'.result ∧ t.status = t'.status

/-- R40, R110, R111: COMPRESS starts with WIN = CTX ‖ PAY_IN and every register at R40's value, CUR = 48 among them. The
model's choice (log 9): OUT and STR_IN, which a COMPRESS does not have, are empty. -/
def Obligations.CompressStarts : Prop :=
  ∀ (s : State) (h p : HostBuffer) (d : HostStorage) (rest : List Command), s.Issues (.compress h p d) rest →
    (Command.compress h p d).Disjoint → 40 ≤ h.bytes.length →
    step s = .next { s with
      pending := rest, phase := .encoding, result := .none, hdr := h.bytes, ctx := contextOf h.bytes,
      payIn := p.bytes, win := contextOf h.bytes ++ p.bytes, strOut := [], strIn := [], out := [], i := 0,
      litActive := false, litHdr := 0, z := 0, bestL := 0, bestJ := 0, ip := 0, cur := 48, na := 0, sa := 0,
      chainOpen := false, stopSeen := false, status := 0, faultPos := 0 }

/-- R40, R140: DECOMPRESS starts with OUT = CTX, of 48 bytes, and every register at R40's value, CUR = 48 among them. The
model's choice (log 9): WIN and PAY_IN, which a DECOMPRESS does not have, are empty. -/
def Obligations.DecompressStarts : Prop :=
  ∀ (s : State) (h i : HostBuffer) (d : HostStorage) (rest : List Command), s.Issues (.decompress h i d) rest →
    (Command.decompress h i d).Disjoint → 40 ≤ h.bytes.length →
    (contextOf h.bytes).length = 48 ∧
    step s = .next { s with
      pending := rest, phase := .decoding, result := .none, hdr := h.bytes, ctx := contextOf h.bytes,
      payIn := [], win := [], strOut := [], strIn := i.bytes, out := contextOf h.bytes, i := 0,
      litActive := false, litHdr := 0, z := 0, bestL := 0, bestJ := 0, ip := 0, cur := 48, na := 0, sa := 0,
      chainOpen := false, stopSeen := false, status := 0, faultPos := 0 }

/-- R22, R57: no state survives from one command to the next. Two idle cores of the same capacities that are given the
same command agree, after any number of steps, on all the host can see. -/
def Obligations.CommandsAreStateless : Prop :=
  ∀ (s s' t : State) (c : Command) (k : Nat), s.Issues c [] → s'.Issues c [] → s.caps = s'.caps →
    runSteps (k + 1) s = .next t →
    ∃ t', runSteps (k + 1) s' = .next t' ∧ t'.phase = t.phase ∧ t'.result = t.result ∧ t'.status = t.status ∧
      t'.faultPos = t.faultPos

/-! ### COMPRESS (41_lz77_encoder.md) -/

/-- R113: ZeroRunLength is the number of consecutive zero bytes from PAY_IN[I], capped at 17. -/
def Obligations.ZeroRunLengthIsMaximal : Prop :=
  ∀ (pay : List Byte) (i : Nat),
    zeroRunLength pay i ≤ 17 ∧ (∀ k, k < zeroRunLength pay i → pay[i + k]? = some 0) ∧
    (zeroRunLength pay i < 17 → pay[i + zeroRunLength pay i]? ≠ some 0)

/-- R114–R116: LongestMatch is (0, 0) when there is no match; otherwise it is a match, no match is longer, and no match
of the same length starts later (last-longest wins). -/
def Obligations.LongestMatchIsLastLongest : Prop :=
  ∀ (win pay : List Byte) (i p : Nat),
    ((∀ j l, ¬ ValidMatch win pay i p j l) → longestMatch win pay i p = (0, 0)) ∧
    ((∃ j l, ValidMatch win pay i p j l) →
      ValidMatch win pay i p (longestMatch win pay i p).2 (longestMatch win pay i p).1 ∧
      ∀ j l, ValidMatch win pay i p j l →
        l < (longestMatch win pay i p).1 ∨ (l = (longestMatch win pay i p).1 ∧ j ≤ (longestMatch win pay i p).2))

/-- R118: Select. -/
def Obligations.SelectRule : Prop :=
  ∀ l z d : Nat,
    (TakesMatch l z d → select l z d = .backref) ∧
    (¬ TakesMatch l z d → z > 1 → select l z d = .zeroRun) ∧
    (¬ TakesMatch l z d → z ≤ 1 → select l z d = .literal)

/-- R112, R127, R128: a pass that selects MATCH appends the back-reference's bytes, ends the literal run and moves I past
the match. Everything else is unchanged. -/
def Obligations.MatchPass : Prop :=
  ∀ s : State, s.HasByte → TakesMatch s.bestNow.1 s.zNow s.distNow →
    Fits s.caps.maxStreamOut (s.olen + (backrefBytes s.bestNow.1 s.distNow).length) →
    step s = .next { s with
      z := s.zNow, bestL := s.bestNow.1, bestJ := s.bestNow.2, litActive := false,
      strOut := s.strOut ++ backrefBytes s.bestNow.1 s.distNow, i := s.i + s.bestNow.1 }

/-- R112, R120, R127, R128: a pass that selects ZERORUN appends the byte 0x80 | (Z − 2), ends the literal run and moves I
past the zeros. Everything else is unchanged. -/
def Obligations.ZeroRunPass : Prop :=
  ∀ s : State, s.HasByte → ¬ TakesMatch s.bestNow.1 s.zNow s.distNow → s.zNow > 1 →
    Fits s.caps.maxStreamOut (s.olen + 1) →
    step s = .next { s with
      z := s.zNow, bestL := s.bestNow.1, bestJ := s.bestNow.2, litActive := false,
      strOut := s.strOut ++ [BitVec.ofNat 8 (0x80 ||| (s.zNow - 2))], i := s.i + s.zNow }

/-- R112, R119, R128: a pass that selects LITERAL appends the payload byte to the open run, whose count byte grows by 1, or
starts a new run of count 1 when none is open or the open one holds 127 bytes; I moves by 1. Everything else is
unchanged. -/
def Obligations.LiteralPass : Prop :=
  ∀ (s : State) (x : Byte), s.HasByte → s.payIn[s.i]? = some x →
    ¬ TakesMatch s.bestNow.1 s.zNow s.distNow → s.zNow ≤ 1 →
    (∀ c, s.Extends c → Fits s.caps.maxStreamOut (s.olen + 1) →
      step s = .next { s with
        z := s.zNow, bestL := s.bestNow.1, bestJ := s.bestNow.2,
        strOut := s.strOut.set s.litHdr (c + 1) ++ [x], i := s.i + 1 }) ∧
    (s.StartsRun → Fits s.caps.maxStreamOut (s.olen + 2) →
      step s = .next { s with
        z := s.zNow, bestL := s.bestNow.1, bestJ := s.bestNow.2, litActive := true, litHdr := s.olen,
        strOut := s.strOut ++ [1, x], i := s.i + 1 })

/-- R130, R173, R178: a pass whose bytes do not fit in MAX_STREAM_OUT raises OutputOverflow(I), with STATUS.UNSUP = 0. The
model's choice (log 7): Z, BEST_L, BEST_J, LIT_HDR and LIT_ACTIVE hold what they held before the pass, also where R119
writes LIT_HDR and LIT_ACTIVE before the Append that fails. -/
def Obligations.EncoderOverflow : Prop :=
  ∀ s : State, s.HasByte → s.EncodingInv →
    (TakesMatch s.bestNow.1 s.zNow s.distNow →
      ¬ Fits s.caps.maxStreamOut (s.olen + (backrefBytes s.bestNow.1 s.distNow).length) →
      ∃ t, step s = .next t ∧ FaultEntry s t 3 s.i false) ∧
    (¬ TakesMatch s.bestNow.1 s.zNow s.distNow → s.zNow > 1 → ¬ Fits s.caps.maxStreamOut (s.olen + 1) →
      ∃ t, step s = .next t ∧ FaultEntry s t 3 s.i false) ∧
    (¬ TakesMatch s.bestNow.1 s.zNow s.distNow → s.zNow ≤ 1 → s.StartsRun →
      ¬ Fits s.caps.maxStreamOut (s.olen + 2) → ∃ t, step s = .next t ∧ FaultEntry s t 3 s.i false) ∧
    (∀ c, ¬ TakesMatch s.bestNow.1 s.zNow s.distNow → s.zNow ≤ 1 → s.Extends c →
      ¬ Fits s.caps.maxStreamOut (s.olen + 1) → ∃ t, step s = .next t ∧ FaultEntry s t 3 s.i false)

/-- R110, R129: when I = PLEN, COMPRESS completes with its stream and STATUS = 0. -/
def Obligations.CompressCompletes : Prop :=
  ∀ s : State, s.phase = .encoding → s.i = s.plen →
    step s = .next { s with phase := .idle, result := .stream s.strOut, status := 0 }

/-- R121–R126: the bytes emitted for a match of length L at distance d are a chain of BackrefExtend opcodes and one
Backref whose fields are N mod 8 and S mod 8, and the decoder's n and s for it are L and d. -/
def Obligations.BackrefChainMeansItsMatch : Prop :=
  ∀ l d, 2 ≤ l → l ≤ d →
    ∃ chain : List (Nat × Nat),
      disassemble (backrefBytes l d) =
        .ok (chain.map (fun e => Instr.brext e.1 e.2) ++ [.bref ((l - 2) % 8) ((d - l) % 8)]) ∧
      (∀ e ∈ chain, e.1 ≤ 1 ∧ e.2 ≤ 15 ∧ e ≠ (0, 0)) ∧
      chainLength chain + (l - 2) % 8 + 2 = l ∧ (d - l) % 8 + chainDistance chain + l = d

/-- R122: N ≤ 7 and S ≤ 7 take the one-byte form 0xC0 | (N << 3) | S. -/
def Obligations.ShortBackrefByte : Prop :=
  ∀ l d, 2 ≤ l → l ≤ d → l - 2 ≤ 7 → d - l ≤ 7 →
    backrefBytes l d = [BitVec.ofNat 8 (0xC0 ||| ((l - 2) <<< 3) ||| (d - l))]

/-- R131: the opcodes of every stream COMPRESS returns: literal counts 1 to 127, zero-run counts 2 to 17, no Stop, no
reserved byte, no 0xA0, and every BackrefExtend chain ended by a Backref. -/
def Obligations.CompressedStreamShape : Prop :=
  ∀ (s t : State) (h p : HostBuffer) (d : HostStorage) (k : Nat) (str : List Byte),
    s.Issues (.compress h p d) [] → runSteps k s = .next t → t.done → t.result = .stream str →
    ∃ is, disassemble str = .ok is ∧ (∀ i ∈ is, i.wellFormed = true) ∧ encoderOps is = true

/-- R133: a payload of exactly k zero bytes, 2 ≤ k ≤ 17, compresses to the one byte 0x80 | (k − 2), under every header. -/
def Obligations.ZeroPayloadIsOneByte : Prop :=
  ∀ (s : State) (h p : HostBuffer) (d : HostStorage) (k : Nat), s.Issues (.compress h p d) [] →
    (Command.compress h p d).Disjoint → 40 ≤ h.bytes.length → 2 ≤ k → k ≤ 17 → p.bytes = List.replicate k 0 →
    Fits s.caps.maxStreamOut 1 →
    ∃ n t, runSteps n s = .next t ∧ t.done ∧ t.status = 0 ∧ t.result = .stream [BitVec.ofNat 8 (0x80 ||| (k - 2))]

/-! ### Whole runs -/

/-- R129: from a state of COMPRESS's loop the command ends, after at most PLEN − I passes and its completion. -/
def Obligations.CompressTerminates : Prop :=
  ∀ s : State, s.phase = .encoding → s.EncodingInv →
    ∃ k t, 1 ≤ k ∧ k ≤ s.plen - s.i + 1 ∧ runSteps k s = .next t ∧ t.phase = .idle

/-- R141: every DECOMPRESS ends, after at most SLEN − IP opcodes and the end of the stream, from any state of its loop
where CUR is len(OUT) (R30). -/
def Obligations.DecompressTerminates : Prop :=
  ∀ s : State, s.phase = .decoding → s.cur = s.out.length →
    ∃ k t, 1 ≤ k ∧ k ≤ s.slen - s.ip + 1 ∧ runSteps k s = .next t ∧ t.phase = .idle

/-- R132, with R105 and R193 for the two headers: what COMPRESS returns, DECOMPRESS under a header with the same bytes
[8, 40) turns back into the payload, with STATUS = 0, whatever the two cores held before. -/
def Obligations.RoundTrip : Prop :=
  ∀ (s t u : State) (h h' p str : HostBuffer) (d d' : HostStorage) (k : Nat),
    s.Issues (.compress h p d) [] → runSteps k s = .next t → t.done → t.result = .stream str.bytes →
    u.Issues (.decompress h' str d') [] → (Command.decompress h' str d').Disjoint → 40 ≤ h'.bytes.length →
    (∀ j, 8 ≤ j → j < 40 → h'.bytes[j]? = h.bytes[j]?) → Fits u.caps.maxPayloadOut p.bytes.length →
    ∃ k' v, runSteps k' u = .next v ∧ v.done ∧ v.result = .payload p.bytes ∧ v.status = 0

/-- The invariant holds after reset: the core is idle with no result (70_reset_and_hazards.md R190). The model's choice
(log 8): STATUS = 0 and FAULT_POS = 0 right after reset, where R35 and R36 give their values at a command's start only. -/
def Obligations.InvAtReset : Prop := State.reset.Inv

/-- Every step keeps the invariant, from every state that meets it (10_state.md R24–R36): I and IP stay within their
inputs, WIN = CTX ‖ PAY_IN, CUR is len(OUT) in DECOMPRESS, OUT begins with CTX, CTX is the header's, the open literal run's
count byte is exact, NA and SA are 0 outside a chain, the capacities are kept, STATUS holds a legal code with its
reserved bits 0. -/
def Obligations.StepKeepsInv : Prop := ∀ s t : State, s.Inv → step s = .next t → t.Inv

/-- From a state that meets the invariant the model never stops by a fault: no rule reads a byte a space does not have
(20_memory.md R60); and it refuses only a command whose buffers overlap (R63). -/
def Obligations.InvStatesNeverFault : Prop :=
  ∀ s : State, s.Inv →
    (∃ t, step s = .next t) ∨ ∃ c rest, s.Issues c rest ∧ ¬ c.Disjoint ∧ step s = .refused .overlappingBuffers

/-- R30: in DECOMPRESS, CUR is always len(OUT): it is so where a command's start enters the loop (R140), and every step
that stays in the loop keeps it so. That the equality is read in DECOMPRESS, the one command with an OUT, is log 9
(DEDUCED). -/
def Obligations.CursorIsOutLength : Prop :=
  ∀ s t : State, (s.phase = .decoding → s.cur = s.out.length) → step s = .next t →
    t.phase = .decoding → t.cur = t.out.length
end

