-- ==== Sys2Proof/Laws/State.lean ====
section
/-! SUPPORT. One lemma per field per update of State, each true by definition, so that no proof unfolds an update.
A length (OLEN, PLEN, SLEN) is listed for the updates that keep its buffer. -/

namespace Sys2Proof.Machine

section
variable (s : State)


@[simp] theorem advance_caps (n : Nat) : (s.advance n).caps = s.caps := rfl
@[simp] theorem advance_pending (n : Nat) : (s.advance n).pending = s.pending := rfl
@[simp] theorem advance_phase (n : Nat) : (s.advance n).phase = s.phase := rfl
@[simp] theorem advance_result (n : Nat) : (s.advance n).result = s.result := rfl
@[simp] theorem advance_hdr (n : Nat) : (s.advance n).hdr = s.hdr := rfl
@[simp] theorem advance_ctx (n : Nat) : (s.advance n).ctx = s.ctx := rfl
@[simp] theorem advance_payIn (n : Nat) : (s.advance n).payIn = s.payIn := rfl
@[simp] theorem advance_win (n : Nat) : (s.advance n).win = s.win := rfl
@[simp] theorem advance_strOut (n : Nat) : (s.advance n).strOut = s.strOut := rfl
@[simp] theorem advance_strIn (n : Nat) : (s.advance n).strIn = s.strIn := rfl
@[simp] theorem advance_out (n : Nat) : (s.advance n).out = s.out := rfl
@[simp] theorem advance_i (n : Nat) : (s.advance n).i = s.i := rfl
@[simp] theorem advance_litActive (n : Nat) : (s.advance n).litActive = s.litActive := rfl
@[simp] theorem advance_litHdr (n : Nat) : (s.advance n).litHdr = s.litHdr := rfl
@[simp] theorem advance_z (n : Nat) : (s.advance n).z = s.z := rfl
@[simp] theorem advance_bestL (n : Nat) : (s.advance n).bestL = s.bestL := rfl
@[simp] theorem advance_bestJ (n : Nat) : (s.advance n).bestJ = s.bestJ := rfl
@[simp] theorem advance_ip (n : Nat) : (s.advance n).ip = s.ip + n := rfl
@[simp] theorem advance_na (n : Nat) : (s.advance n).na = s.na := rfl
@[simp] theorem advance_sa (n : Nat) : (s.advance n).sa = s.sa := rfl
@[simp] theorem advance_chainOpen (n : Nat) : (s.advance n).chainOpen = s.chainOpen := rfl
@[simp] theorem advance_stopSeen (n : Nat) : (s.advance n).stopSeen = s.stopSeen := rfl
@[simp] theorem advance_status (n : Nat) : (s.advance n).status = s.status := rfl
@[simp] theorem advance_faultPos (n : Nat) : (s.advance n).faultPos = s.faultPos := rfl
@[simp] theorem advance_freeIdx (n : Nat) : (s.advance n).freeIdx = s.freeIdx := rfl
@[simp] theorem advance_cur (n : Nat) : (s.advance n).cur = s.cur := rfl
@[simp] theorem advance_olen (n : Nat) : (s.advance n).olen = s.olen := rfl
@[simp] theorem advance_plen (n : Nat) : (s.advance n).plen = s.plen := rfl
@[simp] theorem advance_slen (n : Nat) : (s.advance n).slen = s.slen := rfl

@[simp] theorem consume_caps (n : Nat) : (s.consume n).caps = s.caps := rfl
@[simp] theorem consume_pending (n : Nat) : (s.consume n).pending = s.pending := rfl
@[simp] theorem consume_phase (n : Nat) : (s.consume n).phase = s.phase := rfl
@[simp] theorem consume_result (n : Nat) : (s.consume n).result = s.result := rfl
@[simp] theorem consume_hdr (n : Nat) : (s.consume n).hdr = s.hdr := rfl
@[simp] theorem consume_ctx (n : Nat) : (s.consume n).ctx = s.ctx := rfl
@[simp] theorem consume_payIn (n : Nat) : (s.consume n).payIn = s.payIn := rfl
@[simp] theorem consume_win (n : Nat) : (s.consume n).win = s.win := rfl
@[simp] theorem consume_strOut (n : Nat) : (s.consume n).strOut = s.strOut := rfl
@[simp] theorem consume_strIn (n : Nat) : (s.consume n).strIn = s.strIn := rfl
@[simp] theorem consume_out (n : Nat) : (s.consume n).out = s.out := rfl
@[simp] theorem consume_i (n : Nat) : (s.consume n).i = s.i + n := rfl
@[simp] theorem consume_litActive (n : Nat) : (s.consume n).litActive = s.litActive := rfl
@[simp] theorem consume_litHdr (n : Nat) : (s.consume n).litHdr = s.litHdr := rfl
@[simp] theorem consume_z (n : Nat) : (s.consume n).z = s.z := rfl
@[simp] theorem consume_bestL (n : Nat) : (s.consume n).bestL = s.bestL := rfl
@[simp] theorem consume_bestJ (n : Nat) : (s.consume n).bestJ = s.bestJ := rfl
@[simp] theorem consume_ip (n : Nat) : (s.consume n).ip = s.ip := rfl
@[simp] theorem consume_na (n : Nat) : (s.consume n).na = s.na := rfl
@[simp] theorem consume_sa (n : Nat) : (s.consume n).sa = s.sa := rfl
@[simp] theorem consume_chainOpen (n : Nat) : (s.consume n).chainOpen = s.chainOpen := rfl
@[simp] theorem consume_stopSeen (n : Nat) : (s.consume n).stopSeen = s.stopSeen := rfl
@[simp] theorem consume_status (n : Nat) : (s.consume n).status = s.status := rfl
@[simp] theorem consume_faultPos (n : Nat) : (s.consume n).faultPos = s.faultPos := rfl
@[simp] theorem consume_freeIdx (n : Nat) : (s.consume n).freeIdx = s.freeIdx := rfl
@[simp] theorem consume_cur (n : Nat) : (s.consume n).cur = s.cur := rfl
@[simp] theorem consume_olen (n : Nat) : (s.consume n).olen = s.olen := rfl
@[simp] theorem consume_plen (n : Nat) : (s.consume n).plen = s.plen := rfl
@[simp] theorem consume_slen (n : Nat) : (s.consume n).slen = s.slen := rfl

@[simp] theorem extendChain_caps (a b : Nat) : (s.extendChain a b).caps = s.caps := rfl
@[simp] theorem extendChain_pending (a b : Nat) : (s.extendChain a b).pending = s.pending := rfl
@[simp] theorem extendChain_phase (a b : Nat) : (s.extendChain a b).phase = s.phase := rfl
@[simp] theorem extendChain_result (a b : Nat) : (s.extendChain a b).result = s.result := rfl
@[simp] theorem extendChain_hdr (a b : Nat) : (s.extendChain a b).hdr = s.hdr := rfl
@[simp] theorem extendChain_ctx (a b : Nat) : (s.extendChain a b).ctx = s.ctx := rfl
@[simp] theorem extendChain_payIn (a b : Nat) : (s.extendChain a b).payIn = s.payIn := rfl
@[simp] theorem extendChain_win (a b : Nat) : (s.extendChain a b).win = s.win := rfl
@[simp] theorem extendChain_strOut (a b : Nat) : (s.extendChain a b).strOut = s.strOut := rfl
@[simp] theorem extendChain_strIn (a b : Nat) : (s.extendChain a b).strIn = s.strIn := rfl
@[simp] theorem extendChain_out (a b : Nat) : (s.extendChain a b).out = s.out := rfl
@[simp] theorem extendChain_i (a b : Nat) : (s.extendChain a b).i = s.i := rfl
@[simp] theorem extendChain_litActive (a b : Nat) : (s.extendChain a b).litActive = s.litActive := rfl
@[simp] theorem extendChain_litHdr (a b : Nat) : (s.extendChain a b).litHdr = s.litHdr := rfl
@[simp] theorem extendChain_z (a b : Nat) : (s.extendChain a b).z = s.z := rfl
@[simp] theorem extendChain_bestL (a b : Nat) : (s.extendChain a b).bestL = s.bestL := rfl
@[simp] theorem extendChain_bestJ (a b : Nat) : (s.extendChain a b).bestJ = s.bestJ := rfl
@[simp] theorem extendChain_ip (a b : Nat) : (s.extendChain a b).ip = s.ip := rfl
@[simp] theorem extendChain_na (a b : Nat) : (s.extendChain a b).na = s.na + a := rfl
@[simp] theorem extendChain_sa (a b : Nat) : (s.extendChain a b).sa = s.sa + b := rfl
@[simp] theorem extendChain_chainOpen (a b : Nat) : (s.extendChain a b).chainOpen = true := rfl
@[simp] theorem extendChain_stopSeen (a b : Nat) : (s.extendChain a b).stopSeen = s.stopSeen := rfl
@[simp] theorem extendChain_status (a b : Nat) : (s.extendChain a b).status = s.status := rfl
@[simp] theorem extendChain_faultPos (a b : Nat) : (s.extendChain a b).faultPos = s.faultPos := rfl
@[simp] theorem extendChain_freeIdx (a b : Nat) : (s.extendChain a b).freeIdx = s.freeIdx := rfl
@[simp] theorem extendChain_cur (a b : Nat) : (s.extendChain a b).cur = s.cur := rfl
@[simp] theorem extendChain_olen (a b : Nat) : (s.extendChain a b).olen = s.olen := rfl
@[simp] theorem extendChain_plen (a b : Nat) : (s.extendChain a b).plen = s.plen := rfl
@[simp] theorem extendChain_slen (a b : Nat) : (s.extendChain a b).slen = s.slen := rfl

@[simp] theorem closeChain_caps : (s.closeChain).caps = s.caps := rfl
@[simp] theorem closeChain_pending : (s.closeChain).pending = s.pending := rfl
@[simp] theorem closeChain_phase : (s.closeChain).phase = s.phase := rfl
@[simp] theorem closeChain_result : (s.closeChain).result = s.result := rfl
@[simp] theorem closeChain_hdr : (s.closeChain).hdr = s.hdr := rfl
@[simp] theorem closeChain_ctx : (s.closeChain).ctx = s.ctx := rfl
@[simp] theorem closeChain_payIn : (s.closeChain).payIn = s.payIn := rfl
@[simp] theorem closeChain_win : (s.closeChain).win = s.win := rfl
@[simp] theorem closeChain_strOut : (s.closeChain).strOut = s.strOut := rfl
@[simp] theorem closeChain_strIn : (s.closeChain).strIn = s.strIn := rfl
@[simp] theorem closeChain_out : (s.closeChain).out = s.out := rfl
@[simp] theorem closeChain_i : (s.closeChain).i = s.i := rfl
@[simp] theorem closeChain_litActive : (s.closeChain).litActive = s.litActive := rfl
@[simp] theorem closeChain_litHdr : (s.closeChain).litHdr = s.litHdr := rfl
@[simp] theorem closeChain_z : (s.closeChain).z = s.z := rfl
@[simp] theorem closeChain_bestL : (s.closeChain).bestL = s.bestL := rfl
@[simp] theorem closeChain_bestJ : (s.closeChain).bestJ = s.bestJ := rfl
@[simp] theorem closeChain_ip : (s.closeChain).ip = s.ip := rfl
@[simp] theorem closeChain_na : (s.closeChain).na = 0 := rfl
@[simp] theorem closeChain_sa : (s.closeChain).sa = 0 := rfl
@[simp] theorem closeChain_chainOpen : (s.closeChain).chainOpen = false := rfl
@[simp] theorem closeChain_stopSeen : (s.closeChain).stopSeen = s.stopSeen := rfl
@[simp] theorem closeChain_status : (s.closeChain).status = s.status := rfl
@[simp] theorem closeChain_faultPos : (s.closeChain).faultPos = s.faultPos := rfl
@[simp] theorem closeChain_freeIdx : (s.closeChain).freeIdx = s.freeIdx := rfl
@[simp] theorem closeChain_cur : (s.closeChain).cur = s.cur := rfl
@[simp] theorem closeChain_olen : (s.closeChain).olen = s.olen := rfl
@[simp] theorem closeChain_plen : (s.closeChain).plen = s.plen := rfl
@[simp] theorem closeChain_slen : (s.closeChain).slen = s.slen := rfl

@[simp] theorem noteStop_caps : (s.noteStop).caps = s.caps := rfl
@[simp] theorem noteStop_pending : (s.noteStop).pending = s.pending := rfl
@[simp] theorem noteStop_phase : (s.noteStop).phase = s.phase := rfl
@[simp] theorem noteStop_result : (s.noteStop).result = s.result := rfl
@[simp] theorem noteStop_hdr : (s.noteStop).hdr = s.hdr := rfl
@[simp] theorem noteStop_ctx : (s.noteStop).ctx = s.ctx := rfl
@[simp] theorem noteStop_payIn : (s.noteStop).payIn = s.payIn := rfl
@[simp] theorem noteStop_win : (s.noteStop).win = s.win := rfl
@[simp] theorem noteStop_strOut : (s.noteStop).strOut = s.strOut := rfl
@[simp] theorem noteStop_strIn : (s.noteStop).strIn = s.strIn := rfl
@[simp] theorem noteStop_out : (s.noteStop).out = s.out := rfl
@[simp] theorem noteStop_i : (s.noteStop).i = s.i := rfl
@[simp] theorem noteStop_litActive : (s.noteStop).litActive = s.litActive := rfl
@[simp] theorem noteStop_litHdr : (s.noteStop).litHdr = s.litHdr := rfl
@[simp] theorem noteStop_z : (s.noteStop).z = s.z := rfl
@[simp] theorem noteStop_bestL : (s.noteStop).bestL = s.bestL := rfl
@[simp] theorem noteStop_bestJ : (s.noteStop).bestJ = s.bestJ := rfl
@[simp] theorem noteStop_ip : (s.noteStop).ip = s.ip := rfl
@[simp] theorem noteStop_na : (s.noteStop).na = s.na := rfl
@[simp] theorem noteStop_sa : (s.noteStop).sa = s.sa := rfl
@[simp] theorem noteStop_chainOpen : (s.noteStop).chainOpen = s.chainOpen := rfl
@[simp] theorem noteStop_stopSeen : (s.noteStop).stopSeen = true := rfl
@[simp] theorem noteStop_status : (s.noteStop).status = s.status := rfl
@[simp] theorem noteStop_faultPos : (s.noteStop).faultPos = s.faultPos := rfl
@[simp] theorem noteStop_freeIdx : (s.noteStop).freeIdx = s.freeIdx := rfl
@[simp] theorem noteStop_cur : (s.noteStop).cur = s.cur := rfl
@[simp] theorem noteStop_olen : (s.noteStop).olen = s.olen := rfl
@[simp] theorem noteStop_plen : (s.noteStop).plen = s.plen := rfl
@[simp] theorem noteStop_slen : (s.noteStop).slen = s.slen := rfl

@[simp] theorem endLiteralRun_caps : (s.endLiteralRun).caps = s.caps := rfl
@[simp] theorem endLiteralRun_pending : (s.endLiteralRun).pending = s.pending := rfl
@[simp] theorem endLiteralRun_phase : (s.endLiteralRun).phase = s.phase := rfl
@[simp] theorem endLiteralRun_result : (s.endLiteralRun).result = s.result := rfl
@[simp] theorem endLiteralRun_hdr : (s.endLiteralRun).hdr = s.hdr := rfl
@[simp] theorem endLiteralRun_ctx : (s.endLiteralRun).ctx = s.ctx := rfl
@[simp] theorem endLiteralRun_payIn : (s.endLiteralRun).payIn = s.payIn := rfl
@[simp] theorem endLiteralRun_win : (s.endLiteralRun).win = s.win := rfl
@[simp] theorem endLiteralRun_strOut : (s.endLiteralRun).strOut = s.strOut := rfl
@[simp] theorem endLiteralRun_strIn : (s.endLiteralRun).strIn = s.strIn := rfl
@[simp] theorem endLiteralRun_out : (s.endLiteralRun).out = s.out := rfl
@[simp] theorem endLiteralRun_i : (s.endLiteralRun).i = s.i := rfl
@[simp] theorem endLiteralRun_litActive : (s.endLiteralRun).litActive = false := rfl
@[simp] theorem endLiteralRun_litHdr : (s.endLiteralRun).litHdr = s.litHdr := rfl
@[simp] theorem endLiteralRun_z : (s.endLiteralRun).z = s.z := rfl
@[simp] theorem endLiteralRun_bestL : (s.endLiteralRun).bestL = s.bestL := rfl
@[simp] theorem endLiteralRun_bestJ : (s.endLiteralRun).bestJ = s.bestJ := rfl
@[simp] theorem endLiteralRun_ip : (s.endLiteralRun).ip = s.ip := rfl
@[simp] theorem endLiteralRun_na : (s.endLiteralRun).na = s.na := rfl
@[simp] theorem endLiteralRun_sa : (s.endLiteralRun).sa = s.sa := rfl
@[simp] theorem endLiteralRun_chainOpen : (s.endLiteralRun).chainOpen = s.chainOpen := rfl
@[simp] theorem endLiteralRun_stopSeen : (s.endLiteralRun).stopSeen = s.stopSeen := rfl
@[simp] theorem endLiteralRun_status : (s.endLiteralRun).status = s.status := rfl
@[simp] theorem endLiteralRun_faultPos : (s.endLiteralRun).faultPos = s.faultPos := rfl
@[simp] theorem endLiteralRun_freeIdx : (s.endLiteralRun).freeIdx = s.freeIdx := rfl
@[simp] theorem endLiteralRun_cur : (s.endLiteralRun).cur = s.cur := rfl
@[simp] theorem endLiteralRun_olen : (s.endLiteralRun).olen = s.olen := rfl
@[simp] theorem endLiteralRun_plen : (s.endLiteralRun).plen = s.plen := rfl
@[simp] theorem endLiteralRun_slen : (s.endLiteralRun).slen = s.slen := rfl

@[simp] theorem setDest_ctx_caps (bs : List Byte) : (s.setDest .ctx bs).caps = s.caps := rfl
@[simp] theorem setDest_ctx_pending (bs : List Byte) : (s.setDest .ctx bs).pending = s.pending := rfl
@[simp] theorem setDest_ctx_phase (bs : List Byte) : (s.setDest .ctx bs).phase = s.phase := rfl
@[simp] theorem setDest_ctx_result (bs : List Byte) : (s.setDest .ctx bs).result = s.result := rfl
@[simp] theorem setDest_ctx_hdr (bs : List Byte) : (s.setDest .ctx bs).hdr = s.hdr := rfl
@[simp] theorem setDest_ctx_ctx (bs : List Byte) : (s.setDest .ctx bs).ctx = bs := rfl
@[simp] theorem setDest_ctx_payIn (bs : List Byte) : (s.setDest .ctx bs).payIn = s.payIn := rfl
@[simp] theorem setDest_ctx_win (bs : List Byte) : (s.setDest .ctx bs).win = s.win := rfl
@[simp] theorem setDest_ctx_strOut (bs : List Byte) : (s.setDest .ctx bs).strOut = s.strOut := rfl
@[simp] theorem setDest_ctx_strIn (bs : List Byte) : (s.setDest .ctx bs).strIn = s.strIn := rfl
@[simp] theorem setDest_ctx_out (bs : List Byte) : (s.setDest .ctx bs).out = s.out := rfl
@[simp] theorem setDest_ctx_i (bs : List Byte) : (s.setDest .ctx bs).i = s.i := rfl
@[simp] theorem setDest_ctx_litActive (bs : List Byte) : (s.setDest .ctx bs).litActive = s.litActive := rfl
@[simp] theorem setDest_ctx_litHdr (bs : List Byte) : (s.setDest .ctx bs).litHdr = s.litHdr := rfl
@[simp] theorem setDest_ctx_z (bs : List Byte) : (s.setDest .ctx bs).z = s.z := rfl
@[simp] theorem setDest_ctx_bestL (bs : List Byte) : (s.setDest .ctx bs).bestL = s.bestL := rfl
@[simp] theorem setDest_ctx_bestJ (bs : List Byte) : (s.setDest .ctx bs).bestJ = s.bestJ := rfl
@[simp] theorem setDest_ctx_ip (bs : List Byte) : (s.setDest .ctx bs).ip = s.ip := rfl
@[simp] theorem setDest_ctx_na (bs : List Byte) : (s.setDest .ctx bs).na = s.na := rfl
@[simp] theorem setDest_ctx_sa (bs : List Byte) : (s.setDest .ctx bs).sa = s.sa := rfl
@[simp] theorem setDest_ctx_chainOpen (bs : List Byte) : (s.setDest .ctx bs).chainOpen = s.chainOpen := rfl
@[simp] theorem setDest_ctx_stopSeen (bs : List Byte) : (s.setDest .ctx bs).stopSeen = s.stopSeen := rfl
@[simp] theorem setDest_ctx_status (bs : List Byte) : (s.setDest .ctx bs).status = s.status := rfl
@[simp] theorem setDest_ctx_faultPos (bs : List Byte) : (s.setDest .ctx bs).faultPos = s.faultPos := rfl
@[simp] theorem setDest_ctx_freeIdx (bs : List Byte) : (s.setDest .ctx bs).freeIdx = s.freeIdx := rfl
@[simp] theorem setDest_ctx_cur (bs : List Byte) : (s.setDest .ctx bs).cur = s.cur := rfl
@[simp] theorem setDest_ctx_olen (bs : List Byte) : (s.setDest .ctx bs).olen = s.olen := rfl
@[simp] theorem setDest_ctx_plen (bs : List Byte) : (s.setDest .ctx bs).plen = s.plen := rfl
@[simp] theorem setDest_ctx_slen (bs : List Byte) : (s.setDest .ctx bs).slen = s.slen := rfl

@[simp] theorem setDest_strOut_caps (bs : List Byte) : (s.setDest .strOut bs).caps = s.caps := rfl
@[simp] theorem setDest_strOut_pending (bs : List Byte) : (s.setDest .strOut bs).pending = s.pending := rfl
@[simp] theorem setDest_strOut_phase (bs : List Byte) : (s.setDest .strOut bs).phase = s.phase := rfl
@[simp] theorem setDest_strOut_result (bs : List Byte) : (s.setDest .strOut bs).result = s.result := rfl
@[simp] theorem setDest_strOut_hdr (bs : List Byte) : (s.setDest .strOut bs).hdr = s.hdr := rfl
@[simp] theorem setDest_strOut_ctx (bs : List Byte) : (s.setDest .strOut bs).ctx = s.ctx := rfl
@[simp] theorem setDest_strOut_payIn (bs : List Byte) : (s.setDest .strOut bs).payIn = s.payIn := rfl
@[simp] theorem setDest_strOut_win (bs : List Byte) : (s.setDest .strOut bs).win = s.win := rfl
@[simp] theorem setDest_strOut_strOut (bs : List Byte) : (s.setDest .strOut bs).strOut = bs := rfl
@[simp] theorem setDest_strOut_strIn (bs : List Byte) : (s.setDest .strOut bs).strIn = s.strIn := rfl
@[simp] theorem setDest_strOut_out (bs : List Byte) : (s.setDest .strOut bs).out = s.out := rfl
@[simp] theorem setDest_strOut_i (bs : List Byte) : (s.setDest .strOut bs).i = s.i := rfl
@[simp] theorem setDest_strOut_litActive (bs : List Byte) : (s.setDest .strOut bs).litActive = s.litActive := rfl
@[simp] theorem setDest_strOut_litHdr (bs : List Byte) : (s.setDest .strOut bs).litHdr = s.litHdr := rfl
@[simp] theorem setDest_strOut_z (bs : List Byte) : (s.setDest .strOut bs).z = s.z := rfl
@[simp] theorem setDest_strOut_bestL (bs : List Byte) : (s.setDest .strOut bs).bestL = s.bestL := rfl
@[simp] theorem setDest_strOut_bestJ (bs : List Byte) : (s.setDest .strOut bs).bestJ = s.bestJ := rfl
@[simp] theorem setDest_strOut_ip (bs : List Byte) : (s.setDest .strOut bs).ip = s.ip := rfl
@[simp] theorem setDest_strOut_na (bs : List Byte) : (s.setDest .strOut bs).na = s.na := rfl
@[simp] theorem setDest_strOut_sa (bs : List Byte) : (s.setDest .strOut bs).sa = s.sa := rfl
@[simp] theorem setDest_strOut_chainOpen (bs : List Byte) : (s.setDest .strOut bs).chainOpen = s.chainOpen := rfl
@[simp] theorem setDest_strOut_stopSeen (bs : List Byte) : (s.setDest .strOut bs).stopSeen = s.stopSeen := rfl
@[simp] theorem setDest_strOut_status (bs : List Byte) : (s.setDest .strOut bs).status = s.status := rfl
@[simp] theorem setDest_strOut_faultPos (bs : List Byte) : (s.setDest .strOut bs).faultPos = s.faultPos := rfl
@[simp] theorem setDest_strOut_freeIdx (bs : List Byte) : (s.setDest .strOut bs).freeIdx = s.freeIdx := rfl
@[simp] theorem setDest_strOut_cur (bs : List Byte) : (s.setDest .strOut bs).cur = s.cur := rfl
@[simp] theorem setDest_strOut_plen (bs : List Byte) : (s.setDest .strOut bs).plen = s.plen := rfl
@[simp] theorem setDest_strOut_slen (bs : List Byte) : (s.setDest .strOut bs).slen = s.slen := rfl

@[simp] theorem setDest_out_caps (bs : List Byte) : (s.setDest .out bs).caps = s.caps := rfl
@[simp] theorem setDest_out_pending (bs : List Byte) : (s.setDest .out bs).pending = s.pending := rfl
@[simp] theorem setDest_out_phase (bs : List Byte) : (s.setDest .out bs).phase = s.phase := rfl
@[simp] theorem setDest_out_result (bs : List Byte) : (s.setDest .out bs).result = s.result := rfl
@[simp] theorem setDest_out_hdr (bs : List Byte) : (s.setDest .out bs).hdr = s.hdr := rfl
@[simp] theorem setDest_out_ctx (bs : List Byte) : (s.setDest .out bs).ctx = s.ctx := rfl
@[simp] theorem setDest_out_payIn (bs : List Byte) : (s.setDest .out bs).payIn = s.payIn := rfl
@[simp] theorem setDest_out_win (bs : List Byte) : (s.setDest .out bs).win = s.win := rfl
@[simp] theorem setDest_out_strOut (bs : List Byte) : (s.setDest .out bs).strOut = s.strOut := rfl
@[simp] theorem setDest_out_strIn (bs : List Byte) : (s.setDest .out bs).strIn = s.strIn := rfl
@[simp] theorem setDest_out_out (bs : List Byte) : (s.setDest .out bs).out = bs := rfl
@[simp] theorem setDest_out_i (bs : List Byte) : (s.setDest .out bs).i = s.i := rfl
@[simp] theorem setDest_out_litActive (bs : List Byte) : (s.setDest .out bs).litActive = s.litActive := rfl
@[simp] theorem setDest_out_litHdr (bs : List Byte) : (s.setDest .out bs).litHdr = s.litHdr := rfl
@[simp] theorem setDest_out_z (bs : List Byte) : (s.setDest .out bs).z = s.z := rfl
@[simp] theorem setDest_out_bestL (bs : List Byte) : (s.setDest .out bs).bestL = s.bestL := rfl
@[simp] theorem setDest_out_bestJ (bs : List Byte) : (s.setDest .out bs).bestJ = s.bestJ := rfl
@[simp] theorem setDest_out_ip (bs : List Byte) : (s.setDest .out bs).ip = s.ip := rfl
@[simp] theorem setDest_out_cur (bs : List Byte) : (s.setDest .out bs).cur = s.cur := rfl
@[simp] theorem setDest_out_na (bs : List Byte) : (s.setDest .out bs).na = s.na := rfl
@[simp] theorem setDest_out_sa (bs : List Byte) : (s.setDest .out bs).sa = s.sa := rfl
@[simp] theorem setDest_out_chainOpen (bs : List Byte) : (s.setDest .out bs).chainOpen = s.chainOpen := rfl
@[simp] theorem setDest_out_stopSeen (bs : List Byte) : (s.setDest .out bs).stopSeen = s.stopSeen := rfl
@[simp] theorem setDest_out_status (bs : List Byte) : (s.setDest .out bs).status = s.status := rfl
@[simp] theorem setDest_out_faultPos (bs : List Byte) : (s.setDest .out bs).faultPos = s.faultPos := rfl
@[simp] theorem setDest_out_freeIdx (bs : List Byte) : (s.setDest .out bs).freeIdx = s.freeIdx := rfl
@[simp] theorem setDest_out_olen (bs : List Byte) : (s.setDest .out bs).olen = s.olen := rfl
@[simp] theorem setDest_out_plen (bs : List Byte) : (s.setDest .out bs).plen = s.plen := rfl
@[simp] theorem setDest_out_slen (bs : List Byte) : (s.setDest .out bs).slen = s.slen := rfl

@[simp] theorem extend_ctx (bs : List Byte) : s.extend .ctx bs = s.setDest .ctx (s.ctx ++ bs) := rfl
@[simp] theorem extend_strOut (bs : List Byte) : s.extend .strOut bs = s.setDest .strOut (s.strOut ++ bs) := rfl
@[simp] theorem extend_out_caps (bs : List Byte) : (s.extend .out bs).caps = s.caps := rfl
@[simp] theorem extend_out_pending (bs : List Byte) : (s.extend .out bs).pending = s.pending := rfl
@[simp] theorem extend_out_phase (bs : List Byte) : (s.extend .out bs).phase = s.phase := rfl
@[simp] theorem extend_out_result (bs : List Byte) : (s.extend .out bs).result = s.result := rfl
@[simp] theorem extend_out_hdr (bs : List Byte) : (s.extend .out bs).hdr = s.hdr := rfl
@[simp] theorem extend_out_ctx (bs : List Byte) : (s.extend .out bs).ctx = s.ctx := rfl
@[simp] theorem extend_out_payIn (bs : List Byte) : (s.extend .out bs).payIn = s.payIn := rfl
@[simp] theorem extend_out_win (bs : List Byte) : (s.extend .out bs).win = s.win := rfl
@[simp] theorem extend_out_strOut (bs : List Byte) : (s.extend .out bs).strOut = s.strOut := rfl
@[simp] theorem extend_out_strIn (bs : List Byte) : (s.extend .out bs).strIn = s.strIn := rfl
@[simp] theorem extend_out_out (bs : List Byte) : (s.extend .out bs).out = s.out ++ bs := rfl
@[simp] theorem extend_out_i (bs : List Byte) : (s.extend .out bs).i = s.i := rfl
@[simp] theorem extend_out_litActive (bs : List Byte) : (s.extend .out bs).litActive = s.litActive := rfl
@[simp] theorem extend_out_litHdr (bs : List Byte) : (s.extend .out bs).litHdr = s.litHdr := rfl
@[simp] theorem extend_out_z (bs : List Byte) : (s.extend .out bs).z = s.z := rfl
@[simp] theorem extend_out_bestL (bs : List Byte) : (s.extend .out bs).bestL = s.bestL := rfl
@[simp] theorem extend_out_bestJ (bs : List Byte) : (s.extend .out bs).bestJ = s.bestJ := rfl
@[simp] theorem extend_out_ip (bs : List Byte) : (s.extend .out bs).ip = s.ip := rfl
@[simp] theorem extend_out_cur (bs : List Byte) : (s.extend .out bs).cur = s.cur + bs.length := rfl
@[simp] theorem extend_out_na (bs : List Byte) : (s.extend .out bs).na = s.na := rfl
@[simp] theorem extend_out_sa (bs : List Byte) : (s.extend .out bs).sa = s.sa := rfl
@[simp] theorem extend_out_chainOpen (bs : List Byte) : (s.extend .out bs).chainOpen = s.chainOpen := rfl
@[simp] theorem extend_out_stopSeen (bs : List Byte) : (s.extend .out bs).stopSeen = s.stopSeen := rfl
@[simp] theorem extend_out_status (bs : List Byte) : (s.extend .out bs).status = s.status := rfl
@[simp] theorem extend_out_faultPos (bs : List Byte) : (s.extend .out bs).faultPos = s.faultPos := rfl
@[simp] theorem extend_out_freeIdx (bs : List Byte) : (s.extend .out bs).freeIdx = s.freeIdx := rfl
@[simp] theorem extend_out_olen (bs : List Byte) : (s.extend .out bs).olen = s.olen := rfl
@[simp] theorem extend_out_plen (bs : List Byte) : (s.extend .out bs).plen = s.plen := rfl
@[simp] theorem extend_out_slen (bs : List Byte) : (s.extend .out bs).slen = s.slen := rfl

@[simp] theorem finish_caps (r : Result) (u : Bool) : (s.finish r u).caps = s.caps := rfl
@[simp] theorem finish_pending (r : Result) (u : Bool) : (s.finish r u).pending = s.pending := rfl
@[simp] theorem finish_phase (r : Result) (u : Bool) : (s.finish r u).phase = .idle := rfl
@[simp] theorem finish_result (r : Result) (u : Bool) : (s.finish r u).result = r := rfl
@[simp] theorem finish_hdr (r : Result) (u : Bool) : (s.finish r u).hdr = s.hdr := rfl
@[simp] theorem finish_ctx (r : Result) (u : Bool) : (s.finish r u).ctx = s.ctx := rfl
@[simp] theorem finish_payIn (r : Result) (u : Bool) : (s.finish r u).payIn = s.payIn := rfl
@[simp] theorem finish_win (r : Result) (u : Bool) : (s.finish r u).win = s.win := rfl
@[simp] theorem finish_strOut (r : Result) (u : Bool) : (s.finish r u).strOut = s.strOut := rfl
@[simp] theorem finish_strIn (r : Result) (u : Bool) : (s.finish r u).strIn = s.strIn := rfl
@[simp] theorem finish_out (r : Result) (u : Bool) : (s.finish r u).out = s.out := rfl
@[simp] theorem finish_i (r : Result) (u : Bool) : (s.finish r u).i = s.i := rfl
@[simp] theorem finish_litActive (r : Result) (u : Bool) : (s.finish r u).litActive = s.litActive := rfl
@[simp] theorem finish_litHdr (r : Result) (u : Bool) : (s.finish r u).litHdr = s.litHdr := rfl
@[simp] theorem finish_z (r : Result) (u : Bool) : (s.finish r u).z = s.z := rfl
@[simp] theorem finish_bestL (r : Result) (u : Bool) : (s.finish r u).bestL = s.bestL := rfl
@[simp] theorem finish_bestJ (r : Result) (u : Bool) : (s.finish r u).bestJ = s.bestJ := rfl
@[simp] theorem finish_ip (r : Result) (u : Bool) : (s.finish r u).ip = s.ip := rfl
@[simp] theorem finish_na (r : Result) (u : Bool) : (s.finish r u).na = s.na := rfl
@[simp] theorem finish_sa (r : Result) (u : Bool) : (s.finish r u).sa = s.sa := rfl
@[simp] theorem finish_chainOpen (r : Result) (u : Bool) : (s.finish r u).chainOpen = s.chainOpen := rfl
@[simp] theorem finish_stopSeen (r : Result) (u : Bool) : (s.finish r u).stopSeen = s.stopSeen := rfl
@[simp] theorem finish_status (r : Result) (u : Bool) : (s.finish r u).status = statusWord 0 u := rfl
@[simp] theorem finish_faultPos (r : Result) (u : Bool) : (s.finish r u).faultPos = s.faultPos := rfl
@[simp] theorem finish_freeIdx (r : Result) (u : Bool) : (s.finish r u).freeIdx = s.freeIdx := rfl
@[simp] theorem finish_cur (r : Result) (u : Bool) : (s.finish r u).cur = s.cur := rfl
@[simp] theorem finish_olen (r : Result) (u : Bool) : (s.finish r u).olen = s.olen := rfl
@[simp] theorem finish_plen (r : Result) (u : Bool) : (s.finish r u).plen = s.plen := rfl
@[simp] theorem finish_slen (r : Result) (u : Bool) : (s.finish r u).slen = s.slen := rfl

@[simp] theorem raise_caps (e : ErrorKind) (p : Nat) (u : Bool) : (s.raise e p u).caps = s.caps := rfl
@[simp] theorem raise_pending (e : ErrorKind) (p : Nat) (u : Bool) : (s.raise e p u).pending = s.pending := rfl
@[simp] theorem raise_phase (e : ErrorKind) (p : Nat) (u : Bool) : (s.raise e p u).phase = .idle := rfl
@[simp] theorem raise_result (e : ErrorKind) (p : Nat) (u : Bool) : (s.raise e p u).result = .none := rfl
@[simp] theorem raise_hdr (e : ErrorKind) (p : Nat) (u : Bool) : (s.raise e p u).hdr = s.hdr := rfl
@[simp] theorem raise_ctx (e : ErrorKind) (p : Nat) (u : Bool) : (s.raise e p u).ctx = Config.unspecifiedBytes s.freeIdx := rfl
@[simp] theorem raise_payIn (e : ErrorKind) (p : Nat) (u : Bool) : (s.raise e p u).payIn = s.payIn := rfl
@[simp] theorem raise_win (e : ErrorKind) (p : Nat) (u : Bool) : (s.raise e p u).win = s.win := rfl
@[simp] theorem raise_strOut (e : ErrorKind) (p : Nat) (u : Bool) : (s.raise e p u).strOut = Config.unspecifiedBytes (s.freeIdx + 1) := rfl
@[simp] theorem raise_strIn (e : ErrorKind) (p : Nat) (u : Bool) : (s.raise e p u).strIn = s.strIn := rfl
@[simp] theorem raise_out (e : ErrorKind) (p : Nat) (u : Bool) : (s.raise e p u).out = Config.unspecifiedBytes (s.freeIdx + 2) := rfl
@[simp] theorem raise_i (e : ErrorKind) (p : Nat) (u : Bool) : (s.raise e p u).i = s.i := rfl
@[simp] theorem raise_litActive (e : ErrorKind) (p : Nat) (u : Bool) : (s.raise e p u).litActive = s.litActive := rfl
@[simp] theorem raise_litHdr (e : ErrorKind) (p : Nat) (u : Bool) : (s.raise e p u).litHdr = s.litHdr := rfl
@[simp] theorem raise_z (e : ErrorKind) (p : Nat) (u : Bool) : (s.raise e p u).z = s.z := rfl
@[simp] theorem raise_bestL (e : ErrorKind) (p : Nat) (u : Bool) : (s.raise e p u).bestL = s.bestL := rfl
@[simp] theorem raise_bestJ (e : ErrorKind) (p : Nat) (u : Bool) : (s.raise e p u).bestJ = s.bestJ := rfl
@[simp] theorem raise_ip (e : ErrorKind) (p : Nat) (u : Bool) : (s.raise e p u).ip = s.ip := rfl
@[simp] theorem raise_cur (e : ErrorKind) (p : Nat) (u : Bool) : (s.raise e p u).cur = s.cur := rfl
@[simp] theorem raise_na (e : ErrorKind) (p : Nat) (u : Bool) : (s.raise e p u).na = s.na := rfl
@[simp] theorem raise_sa (e : ErrorKind) (p : Nat) (u : Bool) : (s.raise e p u).sa = s.sa := rfl
@[simp] theorem raise_chainOpen (e : ErrorKind) (p : Nat) (u : Bool) : (s.raise e p u).chainOpen = s.chainOpen := rfl
@[simp] theorem raise_stopSeen (e : ErrorKind) (p : Nat) (u : Bool) : (s.raise e p u).stopSeen = s.stopSeen := rfl
@[simp] theorem raise_status (e : ErrorKind) (p : Nat) (u : Bool) : (s.raise e p u).status = statusWord e.code u := rfl
@[simp] theorem raise_faultPos (e : ErrorKind) (p : Nat) (u : Bool) : (s.raise e p u).faultPos = p := rfl
@[simp] theorem raise_freeIdx (e : ErrorKind) (p : Nat) (u : Bool) : (s.raise e p u).freeIdx = s.freeIdx + 3 := rfl
@[simp] theorem raise_plen (e : ErrorKind) (p : Nat) (u : Bool) : (s.raise e p u).plen = s.plen := rfl
@[simp] theorem raise_slen (e : ErrorKind) (p : Nat) (u : Bool) : (s.raise e p u).slen = s.slen := rfl

@[simp] theorem scan_caps : (scan s).caps = s.caps := rfl
@[simp] theorem scan_pending : (scan s).pending = s.pending := rfl
@[simp] theorem scan_phase : (scan s).phase = s.phase := rfl
@[simp] theorem scan_result : (scan s).result = s.result := rfl
@[simp] theorem scan_hdr : (scan s).hdr = s.hdr := rfl
@[simp] theorem scan_ctx : (scan s).ctx = s.ctx := rfl
@[simp] theorem scan_payIn : (scan s).payIn = s.payIn := rfl
@[simp] theorem scan_win : (scan s).win = s.win := rfl
@[simp] theorem scan_strOut : (scan s).strOut = s.strOut := rfl
@[simp] theorem scan_strIn : (scan s).strIn = s.strIn := rfl
@[simp] theorem scan_out : (scan s).out = s.out := rfl
@[simp] theorem scan_i : (scan s).i = s.i := rfl
@[simp] theorem scan_litActive : (scan s).litActive = s.litActive := rfl
@[simp] theorem scan_litHdr : (scan s).litHdr = s.litHdr := rfl
@[simp] theorem scan_z : (scan s).z = zeroRunLength s.payIn s.i := rfl
@[simp] theorem scan_bestL : (scan s).bestL = (longestMatch s.win s.payIn s.i s.pos).1 := rfl
@[simp] theorem scan_bestJ : (scan s).bestJ = (longestMatch s.win s.payIn s.i s.pos).2 := rfl
@[simp] theorem scan_ip : (scan s).ip = s.ip := rfl
@[simp] theorem scan_na : (scan s).na = s.na := rfl
@[simp] theorem scan_sa : (scan s).sa = s.sa := rfl
@[simp] theorem scan_chainOpen : (scan s).chainOpen = s.chainOpen := rfl
@[simp] theorem scan_stopSeen : (scan s).stopSeen = s.stopSeen := rfl
@[simp] theorem scan_status : (scan s).status = s.status := rfl
@[simp] theorem scan_faultPos : (scan s).faultPos = s.faultPos := rfl
@[simp] theorem scan_freeIdx : (scan s).freeIdx = s.freeIdx := rfl
@[simp] theorem scan_cur : (scan s).cur = s.cur := rfl
@[simp] theorem scan_olen : (scan s).olen = s.olen := rfl
@[simp] theorem scan_plen : (scan s).plen = s.plen := rfl
@[simp] theorem scan_slen : (scan s).slen = s.slen := rfl

@[simp] theorem initial_caps (c : Command) : (s.initial c).caps = s.caps := rfl
@[simp] theorem initial_pending (c : Command) : (s.initial c).pending = s.pending := rfl
@[simp] theorem initial_phase (c : Command) : (s.initial c).phase = .idle := rfl
@[simp] theorem initial_result (c : Command) : (s.initial c).result = .none := rfl
@[simp] theorem initial_hdr (c : Command) : (s.initial c).hdr = c.header := rfl
@[simp] theorem initial_ctx (c : Command) : (s.initial c).ctx = [] := rfl
@[simp] theorem initial_payIn (c : Command) : (s.initial c).payIn = c.payload := rfl
@[simp] theorem initial_win (c : Command) : (s.initial c).win = [] := rfl
@[simp] theorem initial_strOut (c : Command) : (s.initial c).strOut = [] := rfl
@[simp] theorem initial_strIn (c : Command) : (s.initial c).strIn = c.stream := rfl
@[simp] theorem initial_out (c : Command) : (s.initial c).out = [] := rfl
@[simp] theorem initial_i (c : Command) : (s.initial c).i = 0 := rfl
@[simp] theorem initial_litActive (c : Command) : (s.initial c).litActive = false := rfl
@[simp] theorem initial_litHdr (c : Command) : (s.initial c).litHdr = 0 := rfl
@[simp] theorem initial_z (c : Command) : (s.initial c).z = 0 := rfl
@[simp] theorem initial_bestL (c : Command) : (s.initial c).bestL = 0 := rfl
@[simp] theorem initial_bestJ (c : Command) : (s.initial c).bestJ = 0 := rfl
@[simp] theorem initial_ip (c : Command) : (s.initial c).ip = 0 := rfl
@[simp] theorem initial_cur (c : Command) : (s.initial c).cur = 48 := rfl
@[simp] theorem initial_na (c : Command) : (s.initial c).na = 0 := rfl
@[simp] theorem initial_sa (c : Command) : (s.initial c).sa = 0 := rfl
@[simp] theorem initial_chainOpen (c : Command) : (s.initial c).chainOpen = false := rfl
@[simp] theorem initial_stopSeen (c : Command) : (s.initial c).stopSeen = false := rfl
@[simp] theorem initial_status (c : Command) : (s.initial c).status = 0 := rfl
@[simp] theorem initial_faultPos (c : Command) : (s.initial c).faultPos = 0 := rfl
@[simp] theorem initial_freeIdx (c : Command) : (s.initial c).freeIdx = s.freeIdx := rfl

@[simp] theorem openLiteralRun_caps : s.openLiteralRun.caps = s.caps := rfl
@[simp] theorem openLiteralRun_pending : s.openLiteralRun.pending = s.pending := rfl
@[simp] theorem openLiteralRun_phase : s.openLiteralRun.phase = s.phase := rfl
@[simp] theorem openLiteralRun_result : s.openLiteralRun.result = s.result := rfl
@[simp] theorem openLiteralRun_hdr : s.openLiteralRun.hdr = s.hdr := rfl
@[simp] theorem openLiteralRun_ctx : s.openLiteralRun.ctx = s.ctx := rfl
@[simp] theorem openLiteralRun_payIn : s.openLiteralRun.payIn = s.payIn := rfl
@[simp] theorem openLiteralRun_win : s.openLiteralRun.win = s.win := rfl
@[simp] theorem openLiteralRun_strOut : s.openLiteralRun.strOut = s.strOut := rfl
@[simp] theorem openLiteralRun_strIn : s.openLiteralRun.strIn = s.strIn := rfl
@[simp] theorem openLiteralRun_out : s.openLiteralRun.out = s.out := rfl
@[simp] theorem openLiteralRun_i : s.openLiteralRun.i = s.i := rfl
@[simp] theorem openLiteralRun_litActive : s.openLiteralRun.litActive = true := rfl
@[simp] theorem openLiteralRun_litHdr : s.openLiteralRun.litHdr = s.olen := rfl
@[simp] theorem openLiteralRun_z : s.openLiteralRun.z = s.z := rfl
@[simp] theorem openLiteralRun_bestL : s.openLiteralRun.bestL = s.bestL := rfl
@[simp] theorem openLiteralRun_bestJ : s.openLiteralRun.bestJ = s.bestJ := rfl
@[simp] theorem openLiteralRun_ip : s.openLiteralRun.ip = s.ip := rfl
@[simp] theorem openLiteralRun_na : s.openLiteralRun.na = s.na := rfl
@[simp] theorem openLiteralRun_sa : s.openLiteralRun.sa = s.sa := rfl
@[simp] theorem openLiteralRun_chainOpen : s.openLiteralRun.chainOpen = s.chainOpen := rfl
@[simp] theorem openLiteralRun_stopSeen : s.openLiteralRun.stopSeen = s.stopSeen := rfl
@[simp] theorem openLiteralRun_status : s.openLiteralRun.status = s.status := rfl
@[simp] theorem openLiteralRun_faultPos : s.openLiteralRun.faultPos = s.faultPos := rfl
@[simp] theorem openLiteralRun_freeIdx : s.openLiteralRun.freeIdx = s.freeIdx := rfl
@[simp] theorem openLiteralRun_cur : s.openLiteralRun.cur = s.cur := rfl
@[simp] theorem openLiteralRun_olen : s.openLiteralRun.olen = s.olen := rfl
@[simp] theorem openLiteralRun_plen : s.openLiteralRun.plen = s.plen := rfl
@[simp] theorem openLiteralRun_slen : s.openLiteralRun.slen = s.slen := rfl

end

end Sys2Proof.Machine
end

