-- ==== Sys2Proof/Laws/Ops.lean ====
section
/-! SUPPORT. One lemma per shared operation, saying once everything it can do. -/

namespace Sys2Proof.Machine

/-! ### Spaces and their canonical form -/

@[simp] theorem space_hdr (s : State) : s.space .hdr = s.hdr := rfl
@[simp] theorem space_ctx (s : State) : s.space .ctx = s.ctx := rfl
@[simp] theorem space_payIn (s : State) : s.space .payIn = s.payIn := rfl
@[simp] theorem space_win (s : State) : s.space .win = s.win := rfl
@[simp] theorem space_strOut (s : State) : s.space .strOut = s.strOut := rfl
@[simp] theorem space_strIn (s : State) : s.space .strIn = s.strIn := rfl
@[simp] theorem space_out (s : State) : s.space .out = s.out := rfl
@[simp] theorem space_payOut (s : State) : s.space .payOut = s.out.drop 48 := rfl
@[simp] theorem dest_ctx_space : Dest.space .ctx = .ctx := rfl
@[simp] theorem dest_strOut_space : Dest.space .strOut = .strOut := rfl
@[simp] theorem dest_out_space : Dest.space .out = .out := rfl

/-- Every space of every state is in the canonical form, so every operation keeps it and reset has it. -/
theorem cells_wf (s : State) (sp : Space) : Memory.wf (s.cells sp) = true := by
  have h : (s.cells sp).map Prod.fst = List.range (s.space sp).length := by
    rw [State.cells, List.map_map, List.range_eq_range']
    exact List.zipIdx_map_snd 0 _
  have hl : (s.cells sp).length = (s.space sp).length := by simp [State.cells]
  simp [Memory.wf, h, hl]

/-- Equal cells are equal bytes: the canonical form is one to one. -/
theorem cells_eq_iff (s t : State) (sp : Space) : s.cells sp = t.cells sp ↔ s.space sp = t.space sp := by
  have h (u : State) : (u.cells sp).map Prod.snd = u.space sp := by
    simp [State.cells, List.map_map, Function.comp_def, List.zipIdx_map_fst]
  exact ⟨fun e => by rw [← h s, ← h t, e], fun e => by simp [State.cells, e]⟩

theorem setDest_space_self (d : Dest) (bs : List Byte) (s : State) : (s.setDest d bs).space d.space = bs := by
  cases d <;> rfl

theorem setDest_setDest (d : Dest) (bs bs' : List Byte) (s : State) :
    (s.setDest d bs).setDest d bs' = s.setDest d bs' := by
  cases d <;> rfl

/-- Writing a destination leaves every other space alone; PAY_OUT is a part of OUT. -/
theorem setDest_space_other (d : Dest) (bs : List Byte) (s : State) (sp : Space) (h : sp ≠ d.space)
    (hp : d = .out → sp ≠ .payOut) : (s.setDest d bs).space sp = s.space sp := by
  cases d <;> cases sp <;> simp_all [State.setDest, State.space, Dest.space]

/-! ### Accesses -/

theorem memRead_ok_iff (sp : Space) (a : Nat) (s : State) (b : Byte) :
    memRead sp a s = .ok b ↔ (s.space sp)[a]? = some b := by
  unfold memRead; split <;> simp_all

theorem memRead_error (sp : Space) (a : Nat) (s : State) (h : (s.space sp).length ≤ a) :
    memRead sp a s = .error (.stuck (.noSuchByte sp a)) := by
  simp [memRead, List.getElem?_eq_none h]

/-- A byte below a space's length is read. -/
theorem memRead_lt (sp : Space) (a : Nat) (s : State) (h : a < (s.space sp).length) :
    memRead sp a s = .ok ((s.space sp)[a]) := by
  simp [memRead, h]

theorem append_eq (d : Dest) (b : Byte) (s : State) : append d b s = s.extend d [b] := rfl

theorem extend_nil (d : Dest) (s : State) : s.extend d [] = s := by
  cases d <;> simp [State.extend, State.setDest]

theorem extend_extend (d : Dest) (bs bs' : List Byte) (s : State) :
    (s.extend d bs).extend d bs' = s.extend d (bs ++ bs') := by
  cases d <;> simp [State.extend, State.setDest, Nat.add_assoc]

theorem extend_space_self (d : Dest) (bs : List Byte) (s : State) :
    (s.extend d bs).space d.space = s.space d.space ++ bs := by
  cases d <;> rfl

/-- A destination that grows leaves every other space alone; PAY_OUT is a part of OUT. -/
theorem extend_space_other (d : Dest) (bs : List Byte) (s : State) (sp : Space) (h : sp ≠ d.space)
    (hp : d = .out → sp ≠ .payOut) : (s.extend d bs).space sp = s.space sp := by
  cases d <;> cases sp <;> simp_all [State.extend, State.setDest, State.space, Dest.space]

/-- Where CUR is len(OUT), it still is after a destination has grown (10_state.md R30). -/
theorem extend_cur_eq_length (d : Dest) (bs : List Byte) (s : State) (h : s.cur = s.out.length) :
    (s.extend d bs).cur = (s.extend d bs).out.length := by
  cases d <;> simp [h]

/-- `Append(d, b)` is `MemWrite(d, len(d), 1, b)` (00_scope.md R11). -/
theorem memWrite_length (d : Dest) (b : Byte) (s : State) :
    memWrite d (s.space d.space).length b s = .ok (append d b s) := by
  simp [memWrite]

theorem memWrite_lt (d : Dest) (a : Nat) (b : Byte) (s : State) (h : a < (s.space d.space).length) :
    memWrite d a b s = .ok (s.setDest d ((s.space d.space).set a b)) := by
  simp [memWrite, h]

theorem appendAll_eq (d : Dest) (bs : List Byte) (s : State) :
    appendAll d bs s = s.extend d bs := by
  induction bs generalizing s with
  | nil => exact (extend_nil d s).symm
  | cons b bs ih =>
    have h : appendAll d (b :: bs) s = appendAll d bs (append d b s) := rfl
    rw [h, ih, append_eq, extend_extend, List.singleton_append]

/-- A copy from a space the destination is not: the bytes of the range, all at once. -/
theorem copyInto_other (src : Space) (d : Dest) (hs : src ≠ d.space) (hp : d = .out → src ≠ .payOut) (n base : Nat)
    (s : State) (h : base + n ≤ (s.space src).length) :
    copyInto src d n base s = .ok (s.extend d (((s.space src).drop base).take n)) := by
  induction n generalizing base s with
  | zero => simp [copyInto, extend_nil]
  | succ n ih =>
    have hlt : base < (s.space src).length := by omega
    have hsp : (append d (s.space src)[base] s).space src = s.space src := extend_space_other d _ s src hs hp
    rw [copyInto, memRead_lt src base s hlt]
    simp only
    rw [ih (base + 1) _ (by rw [hsp]; omega), hsp, append_eq, extend_extend, List.drop_eq_getElem_cons hlt,
      List.take_succ_cons, List.singleton_append]

/-- A copy within OUT whose source ends at or before the end of OUT: the bytes of the range, all at once
(42_lz77_decoder.md R149). -/
theorem copyInto_out (n base : Nat) (s : State) (h : base + n ≤ s.out.length) :
    copyInto .out .out n base s = .ok (s.extend .out ((s.out.drop base).take n)) := by
  induction n generalizing base s with
  | zero => simp [copyInto, extend_nil]
  | succ n ih =>
    have hlt : base < s.out.length := by omega
    rw [copyInto, memRead_lt .out base s hlt]
    simp only [space_out]
    rw [ih (base + 1) _ (by simp [append_eq]; omega), append_eq, extend_extend, extend_out_out]
    have e : (s.out ++ [s.out[base]]).drop (base + 1) = s.out.drop (base + 1) ++ [s.out[base]] :=
      List.drop_append_of_le_length (by omega)
    rw [e, List.take_append_of_le_length (by simp; omega), List.drop_eq_getElem_cons hlt, List.take_succ_cons,
      List.singleton_append]

/-! ### Checks -/

theorem within_iff (cap : Option Nat) (m : Nat) : within cap m = true ↔ Fits cap m := by
  cases cap <;> simp [within, Fits]

theorem room_ok (m : Nat) (s : State) (h : s.HasRoom m) : room m s = .ok () := by
  simp [room, (within_iff _ _).2 h]

theorem room_error (m : Nat) (s : State) (h : ¬ s.HasRoom m) : room m s = .error (.raise .outputOverflow s.ip) := by
  have : ¬ within s.caps.maxPayloadOut (s.cur - winBase + m) = true := fun w => h ((within_iff _ _).1 w)
  simp [room, this]

theorem needData_ok (k : Nat) (s : State) (h : s.ip + 1 + k ≤ s.slen) : needData k s = .ok () := by
  simp [needData, Nat.not_lt.2 h]

theorem needData_error (k : Nat) (s : State) (h : s.slen < s.ip + 1 + k) :
    needData k s = .error (.raise .truncatedOpcode s.ip) := by
  simp [needData, h]

theorem needDistance_ok (d : Nat) (s : State) (h : d ≤ s.cur) : needDistance d s = .ok () := by
  simp [needDistance, Nat.not_lt.2 h]

theorem needDistance_error (d : Nat) (s : State) (h : s.cur < d) :
    needDistance d s = .error (.raise .distanceOutOfRange s.ip) := by
  simp [needDistance, h]

/-! ### The end of a command -/

@[simp] theorem settle_ok (u : Bool) (s t : State) : settle u s (.ok t) = .next t := rfl
@[simp] theorem settle_raise (u : Bool) (s : State) (e : ErrorKind) (p : Nat) :
    settle u s (.error (.raise e p)) = .next (s.raise e p u) := rfl
@[simp] theorem settle_stuck (u : Bool) (s : State) (f : Fault) : settle u s (.error (.stuck f)) = .fault f := rfl

/-- What a step that settles can answer: the operation's state, or the entry of the fault it raises. -/
theorem settle_next {u : Bool} {s t : State} {r : Except Halt State} (h : settle u s r = .next t) :
    r = .ok t ∨ ∃ e p, r = .error (.raise e p) ∧ t = s.raise e p u := by
  match r, h with
  | .ok _, h => exact .inl (by simpa using h)
  | .error (.raise e p), h => exact .inr ⟨e, p, rfl, by simpa using h.symm⟩
  | .error (.stuck _), h => simp at h

theorem settle_not_refused (u : Bool) (s : State) (r : Except Halt State) (x : Refusal) :
    settle u s r ≠ .refused x := by
  match r with
  | .ok _ => simp
  | .error (.raise _ _) => simp
  | .error (.stuck _) => simp

/-- STATUS of a fault, as the number R35 and R170 give. -/
theorem statusWord_eq (e : ErrorKind) (u : Bool) :
    statusWord e.code u = BitVec.ofNat 8 (e.code.toNat + if u then 8 else 0) := by
  cases e <;> cases u <;> rfl

/-- Every raise is the entry of a fault under its code (60_exceptions.md R178). -/
theorem raise_faultEntry (e : ErrorKind) (p : Nat) (u : Bool) (s : State) :
    FaultEntry s (s.raise e p u) e.code.toNat p u := by
  simp only [FaultEntry, State.raise, statusWord_eq]

/-! ### Runs -/

@[simp] theorem runSteps_zero (s : State) : runSteps 0 s = .next s := rfl

theorem runSteps_succ (k : Nat) (s t : State) (h : step s = .next t) : runSteps (k + 1) s = runSteps k t := by
  have h' : Sys2Proof.core.step s = .next t := h
  simp only [runSteps, Host.Core.run, h']
  rfl

end Sys2Proof.Machine
end

