-- ==== Sys2Proof/Laws/Encoder.lean ====
section
/-! SUPPORT. The lz77_encoder's shared operations: emission (41_lz77_encoder.md R119, R130) and the two counting loops
(R113, R115). -/

namespace Sys2Proof.Machine

theorem emit_ok (b : Byte) (s : State) (h : Fits s.caps.maxStreamOut (s.olen + 1)) :
    emit b s = .ok (s.setDest .strOut (s.strOut ++ [b])) := by
  simp [emit, (within_iff _ _).2 h, append_eq]

theorem emit_error (b : Byte) (s : State) (h : ¬ Fits s.caps.maxStreamOut (s.olen + 1)) :
    emit b s = .error (.raise .outputOverflow s.i) := by
  have : ¬ within s.caps.maxStreamOut (s.olen + 1) = true := fun w => h ((within_iff _ _).1 w)
  simp [emit, this]

theorem Fits.mono {cap : Option Nat} {m n : Nat} (h : Fits cap n) (hm : m ≤ n) : Fits cap m :=
  fun c hc => Nat.le_trans hm (h c hc)

theorem emitAll_ok (bs : List Byte) (s : State) (h : Fits s.caps.maxStreamOut (s.olen + bs.length)) :
    emitAll bs s = .ok (s.setDest .strOut (s.strOut ++ bs)) := by
  induction bs generalizing s with
  | nil => simp [emitAll, State.setDest]
  | cons b bs ih =>
    rw [emitAll, emit_ok b s (h.mono (by simp))]
    simp only
    rw [ih _ (by simpa [State.olen, Nat.add_assoc, Nat.add_comm 1] using h), setDest_setDest, setDest_strOut_strOut,
      List.append_assoc, List.singleton_append]

/-- What an emission can do: append all its bytes within the capacity, or raise OutputOverflow(I). -/
theorem emitAll_cases (bs : List Byte) (s : State) (hs : Fits s.caps.maxStreamOut s.olen) :
    (Fits s.caps.maxStreamOut (s.olen + bs.length) ∧ emitAll bs s = .ok (s.setDest .strOut (s.strOut ++ bs))) ∨
    (¬ Fits s.caps.maxStreamOut (s.olen + bs.length) ∧ emitAll bs s = .error (.raise .outputOverflow s.i)) := by
  by_cases h : Fits s.caps.maxStreamOut (s.olen + bs.length)
  · exact .inl ⟨h, emitAll_ok bs s h⟩
  · refine .inr ⟨h, ?_⟩
    induction bs generalizing s with
    | nil => exact absurd hs (by simpa using h)
    | cons b bs ih =>
      rw [emitAll]
      by_cases h1 : Fits s.caps.maxStreamOut (s.olen + 1)
      · rw [emit_ok b s h1]
        simp only
        rw [ih _ (by simpa [State.olen] using h1)
          (by simpa [State.olen, Nat.add_assoc, Nat.add_comm 1] using h), setDest_strOut_i]
      · rw [emit_error b s h1]

/-- An open run that is not full takes the next literal itself. -/
theorem openRun_extends (s : State) (c : Byte) (h : s.Extends c) : openRun s = .ok s := by
  have hr : memRead .strOut s.litHdr s = .ok c := (memRead_ok_iff _ _ _ _).2 h.2.1
  have hc : (c != 127#8) = true := by simpa using h.2.2
  simp [openRun, extendsRun, h.1, hr, hc]

/-- Where no run is open, or the open one is full, the next literal starts a run. -/
theorem openRun_starts (s : State) (h : s.StartsRun) : openRun s = startLiteralRun s := by
  by_cases ha : s.litActive = true
  · have hc : s.strOut[s.litHdr]? = some 127 := h.resolve_left (by simp [ha])
    have hr : memRead .strOut s.litHdr s = .ok 127 := (memRead_ok_iff _ _ _ _).2 hc
    simp [openRun, extendsRun, ha, hr]
  · simp [openRun, extendsRun, ha]

theorem startLiteralRun_ok (s : State) (h : Fits s.caps.maxStreamOut (s.olen + 1)) :
    startLiteralRun s = .ok (s.openLiteralRun.setDest .strOut (s.strOut ++ [0])) :=
  emit_ok 0 s.openLiteralRun h

theorem startLiteralRun_error (s : State) (h : ¬ Fits s.caps.maxStreamOut (s.olen + 1)) :
    startLiteralRun s = .error (.raise .outputOverflow s.i) :=
  emit_error 0 s.openLiteralRun h

theorem bumpCount_ok (s : State) (c : Byte) (h : s.strOut[s.litHdr]? = some c) :
    bumpCount s = .ok (s.setDest .strOut (s.strOut.set s.litHdr (c + 1))) := by
  have hlt : s.litHdr < s.strOut.length := (List.getElem?_eq_some_iff.1 h).1
  have hr : memRead .strOut s.litHdr s = .ok c := (memRead_ok_iff _ _ _ _).2 h
  simp only [bumpCount, hr]
  exact memWrite_lt .strOut s.litHdr (c + 1) s hlt

/-- EmitLiteral on an open run: the byte is appended and the count byte grows by 1. -/
theorem emitLiteral_extends (x c : Byte) (s : State) (h : s.Extends c) (hf : Fits s.caps.maxStreamOut (s.olen + 1)) :
    emitLiteral x s = .ok (s.setDest .strOut (s.strOut.set s.litHdr (c + 1) ++ [x])) := by
  have hlt : s.litHdr < s.strOut.length := (List.getElem?_eq_some_iff.1 h.2.1).1
  simp only [emitLiteral, openRun_extends s c h, emit_ok x s hf, bind, Except.bind]
  rw [bumpCount_ok _ c (by simp [List.getElem?_append_left hlt, h.2.1])]
  simp [setDest_setDest, List.set_append_left _ _ hlt]

/-- EmitLiteral on a new run: a count byte of 1 and the byte. -/
theorem emitLiteral_starts (x : Byte) (s : State) (h : s.StartsRun) (hf : Fits s.caps.maxStreamOut (s.olen + 2)) :
    emitLiteral x s = .ok (s.openLiteralRun.setDest .strOut (s.strOut ++ [1, x])) := by
  simp only [emitLiteral, openRun_starts s h, startLiteralRun_ok s (hf.mono (by omega)), bind, Except.bind]
  rw [emit_ok x _ (by simpa [State.olen] using hf)]
  simp only
  rw [bumpCount_ok _ 0 (by simp [State.olen])]
  simp [State.setDest, State.olen]

/-- EmitLiteral where an Append does not fit raises OutputOverflow(I). -/
theorem emitLiteral_error (x : Byte) (s : State)
    (h : (∃ c, s.Extends c ∧ ¬ Fits s.caps.maxStreamOut (s.olen + 1)) ∨
      (s.StartsRun ∧ ¬ Fits s.caps.maxStreamOut (s.olen + 2))) :
    emitLiteral x s = .error (.raise .outputOverflow s.i) := by
  rcases h with ⟨c, hc, hf⟩ | ⟨hs, hf⟩
  · simp [emitLiteral, openRun_extends s c hc, emit_error x s hf, bind, Except.bind]
  · by_cases h1 : Fits s.caps.maxStreamOut (s.olen + 1)
    · simp only [emitLiteral, openRun_starts s hs, startLiteralRun_ok s h1, bind, Except.bind]
      rw [emit_error x _ (by simpa [State.olen] using hf)]
      simp
    · simp [emitLiteral, openRun_starts s hs, startLiteralRun_error s h1, bind, Except.bind]

/-- Where the zero-run loop ends: every byte passed is zero, and it ends at its bound or before a byte that is not. -/
theorem zeroRunFrom_spec (pay : List Byte) (i fuel z : Nat) :
    z ≤ zeroRunFrom pay i fuel z ∧ zeroRunFrom pay i fuel z ≤ z + fuel ∧
    (∀ k, z ≤ k → k < zeroRunFrom pay i fuel z → pay[i + k]? = some 0) ∧
    (zeroRunFrom pay i fuel z = z + fuel ∨ pay[i + zeroRunFrom pay i fuel z]? ≠ some 0) := by
  induction fuel generalizing z with
  | zero => exact ⟨le_rfl, le_rfl, fun k h1 h2 => absurd h2 (by simpa [zeroRunFrom] using h1), .inl rfl⟩
  | succ fuel ih =>
    rw [zeroRunFrom]
    split
    · rename_i h0
      obtain ⟨h1, h2, h3, h4⟩ := ih (z + 1)
      refine ⟨by omega, by omega, fun k hk1 hk2 => ?_, h4.imp_left (by omega)⟩
      rcases Nat.eq_or_lt_of_le hk1 with rfl | hk
      · exact h0
      · exact h3 k hk hk2
    · rename_i h0
      exact ⟨le_rfl, by omega, fun k h1 h2 => absurd h2 (by omega), .inr h0⟩

/-- Where the extension loop ends: every byte passed agrees, and it ends at its bound or where R115 stops it. -/
theorem extendMatch_spec (win pay : List Byte) (i p j fuel l : Nat) :
    l ≤ extendMatch win pay i p j fuel l ∧ extendMatch win pay i p j fuel l ≤ l + fuel ∧
    (∀ k, l ≤ k → k < extendMatch win pay i p j fuel l →
      i + k < pay.length ∧ j + k < p ∧ win[j + k]? = pay[i + k]?) ∧
    (extendMatch win pay i p j fuel l = l + fuel ∨
      ¬ (i + extendMatch win pay i p j fuel l < pay.length ∧ j + extendMatch win pay i p j fuel l < p ∧
        win[j + extendMatch win pay i p j fuel l]? = pay[i + extendMatch win pay i p j fuel l]?)) := by
  induction fuel generalizing l with
  | zero => exact ⟨le_rfl, le_rfl, fun k h1 h2 => absurd h2 (by simpa [extendMatch] using h1), .inl rfl⟩
  | succ fuel ih =>
    rw [extendMatch]
    split
    · rename_i h0
      obtain ⟨h1, h2, h3, h4⟩ := ih (l + 1)
      refine ⟨by omega, by omega, fun k hk1 hk2 => ?_, h4.imp_left (by omega)⟩
      rcases Nat.eq_or_lt_of_le hk1 with rfl | hk
      · exact h0
      · exact h3 k hk hk2
    · rename_i h0
      exact ⟨le_rfl, by omega, fun k h1 h2 => absurd h2 (by omega), .inr h0⟩

end Sys2Proof.Machine
end

