-- ==== Sys2Proof/Laws/PerInstr.lean ====
section
/-! SUPPORT. Statements made per instruction (LAWS.json). -/

namespace Sys2Proof.Laws

/-- An opcode's length is what its leading byte says (30_encoding.md R71). -/
def EncodeLength.Statement (i : Instr) : Prop :=
  i.wellFormed = true → ∃ b rest, encode i = b :: rest ∧ (encode i).length = opcodeLength b

theorem EncodeLength.lit (k : Nat) (ds : List Byte) : Statement (.lit k ds) := by
  intro h
  obtain ⟨hk, hd⟩ : k ≤ 127 ∧ ds.length = k := by simpa [Instr.wellFormed] using h
  refine ⟨_, _, rfl, ?_⟩
  have hm : k % 256 = k := Nat.mod_eq_of_lt (by omega)
  have h7 : k >>> 7 = 0 := by rw [Nat.shiftRight_eq_div_pow]; omega
  have h6 : k % 128 = k := Nat.mod_eq_of_lt (by omega)
  simp [encode, opcodeLength, operandBytes, bits, hm, h7, h6, hd, Nat.add_comm]

/-- The rows of one byte: a leading byte with bit 7 set has no argument bytes. -/
theorem EncodeLength.single (i : Instr) (b : Byte) (hb : encode i = [b]) (h7 : operandBytes b = 0) : Statement i :=
  fun _ => ⟨b, [], hb, by simp [hb, opcodeLength, h7]⟩

theorem EncodeLength.zrun (c : Nat) : Statement (.zrun c) := by
  intro h
  obtain ⟨h1, h2⟩ : 2 ≤ c ∧ c ≤ 17 := by simpa [Instr.wellFormed] using h
  exact single _ _ rfl (by interval_cases c <;> decide) h

theorem EncodeLength.stop : Statement .stop := single _ _ rfl (by decide)

theorem EncodeLength.reserved91 : Statement .reserved91 := single _ _ rfl (by decide)

theorem EncodeLength.reserved92 (x : Nat) : Statement (.reserved92 x) := by
  intro h
  have h1 : x ≤ 1 := by simpa [Instr.wellFormed] using h
  exact single _ _ rfl (by interval_cases x <;> decide) h

theorem EncodeLength.reserved94 (x : Nat) : Statement (.reserved94 x) := by
  intro h
  have h1 : x ≤ 3 := by simpa [Instr.wellFormed] using h
  exact single _ _ rfl (by interval_cases x <;> decide) h

theorem EncodeLength.reserved98 (x : Nat) : Statement (.reserved98 x) := by
  intro h
  have h1 : x ≤ 7 := by simpa [Instr.wellFormed] using h
  exact single _ _ rfl (by interval_cases x <;> decide) h

theorem EncodeLength.brext (f v : Nat) : Statement (.brext f v) := by
  intro h
  obtain ⟨h1, h2⟩ : f ≤ 1 ∧ v ≤ 15 := by simpa [Instr.wellFormed] using h
  exact single _ _ rfl (by interval_cases f <;> interval_cases v <;> decide) h

theorem EncodeLength.bref (m q : Nat) : Statement (.bref m q) := by
  intro h
  obtain ⟨h1, h2⟩ : m ≤ 7 ∧ q ≤ 7 := by simpa [Instr.wellFormed] using h
  exact single _ _ rfl (by interval_cases m <;> interval_cases q <;> decide) h

end Sys2Proof.Laws
end

