-- ==== Sys2Proof/Tests/Slice0.lean ====
section
/-! SUPPORT. The model's own tests. Expected values come from the spec's formats and vectors (30_encoding.md,
95_test_vectors.md), named at each test. A `witness_…` shows that a statement's hypotheses are met together. -/

namespace Sys2Proof.Tests

open Sys2Proof.Machine

/-! ### WellFormed refuses an ill-formed term for each of its checks -/

theorem test_lit_count_refused : (Instr.lit 128 (List.replicate 128 0)).wellFormed = false := by simp [Instr.wellFormed]
theorem test_lit_data_refused : (Instr.lit 3 [0x11, 0x22]).wellFormed = false := by decide
theorem test_zrun_low_refused : (Instr.zrun 1).wellFormed = false := by decide
theorem test_zrun_high_refused : (Instr.zrun 18).wellFormed = false := by decide
theorem test_reserved92_refused : (Instr.reserved92 2).wellFormed = false := by decide
theorem test_reserved94_refused : (Instr.reserved94 4).wellFormed = false := by decide
theorem test_reserved98_refused : (Instr.reserved98 8).wellFormed = false := by decide
theorem test_brext_flag_refused : (Instr.brext 2 0).wellFormed = false := by decide
theorem test_brext_nibble_refused : (Instr.brext 0 16).wellFormed = false := by decide
theorem test_bref_length_refused : (Instr.bref 8 0).wellFormed = false := by decide
theorem test_bref_distance_refused : (Instr.bref 0 8).wellFormed = false := by decide

/-! ### Decoding: words written out from 30_encoding.md R73–R78 -/

theorem test_decode_lit : decode [0b00000001#8, 0xaa, 0xb0] = .ok (.lit 1 [0xaa], [0xb0]) := by decide
theorem test_decode_lit_empty : decode [0b00000000#8] = .ok (.lit 0 [], []) := by decide
theorem test_decode_lit_truncated : decode [0b00000011#8, 0x11, 0x22] = .error (.truncated (.lit 3 [0x11, 0x22])) := by
  decide
theorem test_decode_zrun : decode [0b10000010#8] = .ok (.zrun 4, []) := by decide
theorem test_decode_stop : decode [0b10010000#8] = .ok (.stop, []) := by decide
theorem test_decode_reserved91 : decode [0b10010001#8] = .ok (.reserved91, []) := by decide
theorem test_decode_reserved92 : decode [0b10010010#8] = .ok (.reserved92 0, []) := by decide
theorem test_decode_reserved94 : decode [0b10010111#8] = .ok (.reserved94 3, []) := by decide
theorem test_decode_reserved98 : decode [0b10011111#8] = .ok (.reserved98 7, []) := by decide
theorem test_decode_brext : decode [0b10110100#8] = .ok (.brext 1 4, []) := by decide
theorem test_decode_bref : decode [0b11001101#8] = .ok (.bref 1 5, []) := by decide
/-- A LiteralRun given as a table word is followed by zero data bytes. -/
theorem test_table_word : decodeTableWord 8 0x02 = some (.lit 2 [0, 0]) := by decide
/-- R83: `backref 16, 48` = `brext 1, 4; bref 6, 0` = 0xB4 0xF0. -/
theorem test_pseudo_backref : Pseudo.expand (.backref 16 48) = [.brext 1 4, .bref 6 0] := by decide

/-! ### Small states -/

/-- What a next state satisfies; false of a fault or a refusal. -/
def nextIs (o : Host.Outcome State Fault Refusal) (p : State → Bool) : Bool :=
  match o with
  | .next t => p t
  | .fault _ => false
  | .refused _ => false

/-- Header HF of 95_test_vectors.md: 40 bytes 0x11. -/
def headerF : List Byte := List.replicate 40 0x11

/-- Fixture A's header HA (95_test_vectors.md). -/
def headerA : List Byte :=
  List.replicate 8 0 ++
  [0xfe, 0x80, 0, 0, 0, 0, 0, 0, 0x02, 0x1c, 0xda, 0xff, 0xfe, 0, 0x20, 0x24] ++
  [0xff, 0x02, 0, 0, 0, 0, 0, 0, 0, 0, 0, 0, 0, 0, 0, 0x1a]

/-- DECOMPRESS under a header, at its first opcode. -/
def decodingOf (hdr str : List Byte) : State :=
  { State.reset with phase := .decoding, hdr := hdr, ctx := contextOf hdr, out := contextOf hdr, strIn := str }

/-- COMPRESS under a header, at payload index i with the stream written so far. -/
def encodingOf (hdr pay : List Byte) (i : Nat) (str : List Byte) : State :=
  { State.reset with
    phase := .encoding, hdr := hdr, ctx := contextOf hdr, payIn := pay, win := contextOf hdr ++ pay, i := i, strOut := str }

/-- An idle core whose host issues one command. -/
def issuing (c : Command) : State := { State.reset with pending := [c] }

def compressOf (hdr pay : List Byte) : Command := .compress ⟨0, hdr⟩ ⟨100, pay⟩ ⟨1000, 64⟩
def decompressOf (hdr str : List Byte) : Command := .decompress ⟨0, hdr⟩ ⟨100, str⟩ ⟨1000, 256⟩
def buildOf (hdr : List Byte) : Command := .build ⟨0, hdr⟩ ⟨1000, 48⟩

/-! ### One step each: the opcodes (95_test_vectors.md, programs P1 to P4) -/

/-- P1: `04 9b 00 6b de` at IP = 0, CUR = 48. -/
theorem test_lit : nextIs (exec (.lit 4 [0x9b, 0, 0x6b, 0xde]) (decodingOf headerA [4, 0x9b, 0, 0x6b, 0xde, 0x82]))
    (fun t => t.payOut == [0x9b, 0, 0x6b, 0xde] && t.ip == 5 && t.cur == 52) = true := by decide
/-- V41: `03 11 22` raises TruncatedOpcode, ERR = 2, FAULT_POS = 0. -/
theorem test_lit_truncated : nextIs (step (decodingOf headerA [3, 0x11, 0x22]))
    (fun t => t.status == 2 && t.faultPos == 0 && t.result == .none && t.phase == .idle) = true := by decide
/-- P1: `82` writes four zeros. -/
theorem test_zrun : nextIs (step { decodingOf headerA [0x82] with caps := ⟨some 4, none⟩ })
    (fun t => t.payOut == [0, 0, 0, 0] && t.ip == 1) = true := by decide
/-- V44's kind of fault: a ZeroRun of 4 with 3 bytes of room, ERR = 3. -/
theorem test_zrun_overflow : nextIs (step { decodingOf headerA [0x82] with caps := ⟨some 3, none⟩ })
    (fun t => t.status == 3 && t.faultPos == 0) = true := by decide
/-- P2: `b4` gives NA = 8, SA = 32, CHAIN_OPEN = 1. -/
theorem test_brext : nextIs (step (decodingOf headerA [0xb4, 0xf0]))
    (fun t => t.na == 8 && t.sa == 32 && t.chainOpen && t.cur == 48) = true := by decide
/-- V42: the stream `a0` raises TruncatedOpcode at its end, FAULT_POS = SLEN. -/
theorem test_brext_unterminated :
    nextIs (runSteps 2 (decodingOf headerA [0xa0])) (fun t => t.status == 2 && t.faultPos == 1) = true := by decide
/-- V34: `ff` copies OUT[32..41). -/
theorem test_bref : nextIs (step (decodingOf headerA [0xff]))
    (fun t => t.payOut == [0x16, 0xfe, 0xfd, 0x17, 0xfe, 0xfd, 0, 1, 0] && t.ip == 1) = true := by decide
/-- V37: after `a5`, `c7` has s = 49 > CUR = 48. -/
theorem test_bref_distance : nextIs (step { decodingOf headerA [0xa5, 0xc7] with ip := 1, sa := 40, chainOpen := true })
    (fun t => t.status == 1 && t.faultPos == 1) = true := by decide
/-- V40: Stop is a reported no-op, STATUS = 0x08. -/
theorem test_stop : nextIs (runSteps 2 (decodingOf headerA [0x90]))
    (fun t => t.status == 8 && t.result == .payload [] && t.ip == 1) = true := by decide
/-- V39: `95` faults with ReservedOpcode and FAULT_POS = 0. -/
theorem test_reserved94 : nextIs (step (decodingOf headerA [0x95]))
    (fun t => t.status == 4 && t.faultPos == 0 && t.result == .none) = true := by decide
/-- R147 and R178 after a Stop: STATUS.UNSUP is kept. -/
theorem test_reserved91 : nextIs (step { decodingOf headerA [0x91] with stopSeen := true }) (fun t => t.status == 12) = true := by
  decide
theorem test_reserved92 : nextIs (step (decodingOf headerA [0x92])) (fun t => t.status == 4) = true := by decide
theorem test_reserved98 : nextIs (step (decodingOf headerA [0x9f])) (fun t => t.status == 4) = true := by decide

/-! ### One step each: commands and passes of COMPRESS -/

/-- V1 and V9: BUILD(HA); header bytes outside [8, 40) are ignored. -/
theorem test_build : nextIs (step (issuing (buildOf (List.replicate 8 0xee ++ headerA.drop 8 ++ [0xee]))))
    (fun t => t.status == 0 && t.result == .context
      [0xfe, 0x80, 0, 0, 0, 0, 0, 0, 0x02, 0x1c, 0xda, 0xff, 0xfe, 0, 0x20, 0x24,
       0xff, 0x02, 0, 0, 0, 0, 0, 0, 0, 0, 0, 0, 0, 0, 0, 0x1a,
       0x16, 0xfe, 0xfd, 0x17, 0xfe, 0xfd, 0, 1, 0, 0, 0, 0, 0, 1, 0, 0]) = true := by decide
/-- R40: CUR = 48 at the start of every command, also of BUILD and COMPRESS, which have no OUT. -/
theorem test_cursor_at_start :
    nextIs (step (issuing (buildOf headerA))) (fun t => t.cur == 48) = true ∧
    nextIs (step (issuing (compressOf headerF [0x55]))) (fun t => t.cur == 48 && t.phase == .encoding) = true ∧
    nextIs (step { issuing (buildOf headerA) with cur := 60 }) (fun t => t.cur == 48) = true := by decide
/-- V8: a header of 39 bytes, ERR = 5, FAULT_POS = 39. -/
theorem test_build_short : nextIs (step (issuing (buildOf (headerA.take 39))))
    (fun t => t.status == 5 && t.faultPos == 39 && t.result == .none) = true := by decide
/-- V2, row I = 4: Z = BEST_L = 4, BEST_J = 41, a zero run. -/
theorem test_pass_zerorun : nextIs (step (encodingOf headerA [0x9b, 0, 0x6b, 0xde, 0, 0, 0, 0] 4 [4, 0x9b, 0, 0x6b, 0xde]))
    (fun t => t.z == 4 && t.bestL == 4 && t.bestJ == 41 && t.i == 8 && t.strOut == [4, 0x9b, 0, 0x6b, 0xde, 0x82]) = true := by
  decide +kernel
/-- V18 at I = 6: of two matches of length 2 the later one (j = 51, d = 3) wins, 0xC1. -/
theorem test_pass_last_longest :
    nextIs (step (encodingOf headerF [0xab, 0xcd, 1, 0xab, 0xcd, 2, 0xab, 0xcd] 6 [3, 0xab, 0xcd, 1, 0xc1, 1, 2]))
    (fun t => t.bestJ == 51 && t.i == 8 && t.strOut.drop 7 == [0xc1]) = true := by decide +kernel
/-- V2, row I = 1: the open run grows, its count byte rewritten. -/
theorem test_pass_literal :
    nextIs (step { encodingOf headerA [0x9b, 0, 0x6b, 0xde, 0, 0, 0, 0] 1 [1, 0x9b] with litActive := true })
    (fun t => t.z == 1 && t.bestL == 0 && t.strOut == [2, 0x9b, 0] && t.i == 2) = true := by decide +kernel
/-- V17: a 2-byte match at distance 10 is rejected, the byte is a literal. -/
theorem test_pass_far_pair :
    nextIs (step (encodingOf headerF [0x37, 0x38, 0x40, 0x41, 0x42, 0x43, 0x44, 0x45, 0x46, 0x47, 0x37, 0x38] 10 []))
    (fun t => t.bestL == 2 && t.bestJ == 48 && t.strOut == [1, 0x37]) = true := by decide +kernel
/-- V20 and R119: an open run of 127 bytes is closed, a new run starts. -/
theorem test_pass_run_of_127 :
    nextIs (step { encodingOf headerF [0x22] 0 (0x7f :: List.replicate 127 0x33) with litActive := true })
    (fun t => t.litHdr == 128 && t.strOut.drop 127 == [0x33, 1, 0x22]) = true := by decide +kernel
/-- V23: the fourth Append at MAX_STREAM_OUT = 3 raises OutputOverflow, FAULT_POS = I = 2. -/
theorem test_pass_overflow :
    nextIs (step { encodingOf headerA [0x9b, 0, 0x6b, 0xde] 2 [2, 0x9b, 0] with litActive := true, caps := ⟨none, some 3⟩ })
    (fun t => t.status == 3 && t.faultPos == 2) = true := by decide +kernel
/-- V21: the chains whose shape differs most. -/
theorem test_backref_bytes :
    backrefBytes 9 9 = [0xf8] ∧ backrefBytes 9 17 = [0xa1, 0xf8] ∧ backrefBytes 18 18 = [0xb0, 0xb0, 0xc0] ∧
    backrefBytes 4 131 = [0xaf, 0xd7] ∧ backrefBytes 4 132 = [0xaf, 0xa1, 0xd0] ∧
    backrefBytes 47 60 = [0xb1, 0xb0, 0xb0, 0xb0, 0xb0, 0xed] ∧ backrefBytes 20 300 = [0xbf, 0xbf, 0xa5, 0xd0] := by
  decide

/-! ### Witnesses: the hypotheses of each statement, met together -/

theorem disjoint_two {a b : HostStorage} (h : a.base + a.size ≤ b.base) :
    List.Pairwise (fun r q : HostStorage => ∀ x, ¬ (r.base ≤ x ∧ x < r.base + r.size ∧ q.base ≤ x ∧ x < q.base + q.size))
      [a, b] := by
  simp only [List.pairwise_cons, List.mem_singleton, forall_eq, List.not_mem_nil, false_imp_iff, implies_true,
    List.Pairwise.nil, and_true]
  intro x; omega

theorem disjoint_three {a b c : HostStorage} (h : a.base + a.size ≤ b.base) (h' : b.base + b.size ≤ c.base) :
    List.Pairwise (fun r q : HostStorage => ∀ x, ¬ (r.base ≤ x ∧ x < r.base + r.size ∧ q.base ≤ x ∧ x < q.base + q.size))
      [a, b, c] := by
  refine List.Pairwise.cons (fun q hq x => ?_) (disjoint_two h')
  rcases List.mem_pair.1 hq with rfl | rfl <;> omega

theorem disjoint_build : (buildOf headerF).Disjoint := disjoint_two (by decide)
theorem disjoint_compress (n : Nat) (b : Byte) (h : n ≤ 900) :
    (compressOf headerF (List.replicate n b)).Disjoint :=
  disjoint_three (by simp [HostBuffer.storage, headerF]) (by simp [HostBuffer.storage]; omega)
theorem disjoint_decompress : (decompressOf headerF [1, 0x55]).Disjoint := disjoint_three (by decide) (by decide)

theorem witness_DecodeOfEncode :
    (Instr.lit 127 (List.replicate 127 0xff)).wellFormed = true ∧ (Instr.lit 0 []).wellFormed = true ∧
    (Instr.zrun 17).wellFormed = true ∧ (Instr.brext 1 15).wellFormed = true ∧ (Instr.bref 7 7).wellFormed = true := by
  decide +kernel
theorem witness_DecodedBytesAreTheEncoding : decode [0x82, 0x01] = .ok (.zrun 4, [0x01]) := by decide
/-- R80 at the ends of its ranges. -/
theorem witness_LeadingByteMap :
    classify 0x7f [1, 2] = .lit 127 [1, 2] ∧ classify 0x80 [] = .zrun 2 ∧ classify 0x8f [] = .zrun 17 ∧
    classify 0x90 [] = .stop ∧ classify 0x91 [] = .reserved91 ∧ classify 0x92 [] = .reserved92 0 ∧
    classify 0x93 [] = .reserved92 1 ∧ classify 0x94 [] = .reserved94 0 ∧ classify 0x97 [] = .reserved94 3 ∧
    classify 0x98 [] = .reserved98 0 ∧ classify 0x9f [] = .reserved98 7 ∧ classify 0xa0 [] = .brext 0 0 ∧
    classify 0xb0 [] = .brext 1 0 ∧ classify 0xbf [] = .brext 1 15 ∧ classify 0xc0 [] = .bref 0 0 ∧
    classify 0xff [] = .bref 7 7 := by decide
theorem witness_ExactlyOneTableRow : opcodeTable[8]? = some ⟨"bref", 0xC0, 0xC0⟩ ∧ opcodeTable[0]? = some ⟨"lit", 0x80, 0x00⟩ := by
  decide
theorem witness_LengthFromLeadingByte :
    decode (0x7f :: List.replicate 127 1) = .ok (.lit 127 (List.replicate 127 1), []) ∧
    decode (0x7f :: List.replicate 126 1) = .error (.truncated (.lit 127 (List.replicate 126 1))) ∧
    decode [0x80] = .ok (.zrun 2, []) := by decide +kernel
theorem witness_OperandAssembly :
    classify 0x7f [] = .lit 127 [] ∧ classify 0x8f [] = .zrun 17 ∧ classify 0xbf [] = .brext 1 15 ∧
    classify 0xff [] = .bref 7 7 := by decide
theorem witness_StreamSplitsIntoItsOpcodes :
    ∀ i ∈ [Instr.lit 1 [0x90], .stop, .reserved91, .brext 0 0, .bref 0 0], i.wellFormed = true := by decide
theorem witness_PseudoExpansion :
    (Pseudo.literal (List.replicate 128 7)).wellFormed = true ∧ (Pseudo.zeros 17).wellFormed = true ∧
    (Pseudo.backref 20 300).wellFormed = true := by decide +kernel
theorem witness_StepRunsTheDecodedOpcode :
    (decodingOf headerF [0x82]).phase = .decoding ∧ decode ((decodingOf headerF [0x82]).strIn.drop 0) = .ok (.zrun 4, []) ∧
    decode ((decodingOf headerF [0x02, 0x11]).strIn.drop 0) = .error (.truncated (.lit 2 [0x11])) := by decide
theorem witness_EndOfStreamResult :
    (decodingOf headerF []).phase = .decoding ∧ (decodingOf headerF []).ip = (decodingOf headerF []).slen ∧
    (decodingOf headerF []).chainOpen = false ∧ { decodingOf headerF [] with chainOpen := true }.chainOpen = true := by
  decide

theorem hasRoom_of_within {s : State} {m : Nat} (h : within s.caps.maxPayloadOut (s.cur - 48 + m) = true) : s.HasRoom m :=
  (within_iff _ _).1 h

/-- Exactly enough room and data; one data byte too few; one byte of room too few. -/
theorem witness_LiteralRunResult :
    (let s := { decodingOf headerF [2, 1, 1] with caps := ⟨some 2, none⟩ }
     s.ip + 1 + 2 ≤ s.slen ∧ s.HasRoom 2 ∧ [1#8, 1#8].length = 2) ∧
    (decodingOf headerF [2, 1]).slen < (decodingOf headerF [2, 1]).ip + 1 + 2 ∧
    (let s := { decodingOf headerF [2, 1, 1] with caps := ⟨some 1, none⟩ }
     s.ip + 1 + 2 ≤ s.slen ∧ ¬ s.HasRoom 2) :=
  ⟨⟨by decide, hasRoom_of_within (by decide), rfl⟩, by decide, by decide, fun h => absurd (h 1 rfl) (by decide)⟩

theorem witness_ZeroRunResult :
    { decodingOf headerF [0x82] with caps := ⟨some 4, none⟩ }.HasRoom 4 ∧
    ¬ { decodingOf headerF [0x82] with caps := ⟨some 3, none⟩ }.HasRoom 4 :=
  ⟨hasRoom_of_within (by decide), fun h => absurd (h 3 rfl) (by decide)⟩

/-- Distance 48 = CUR with exactly enough room; distance 49; one byte of room too few. -/
theorem witness_BackrefResult :
    (let s := { decodingOf headerF [0xc6] with sa := 40, caps := ⟨some 2, none⟩ }
     s.cur = s.out.length ∧ 6 + s.sa + (s.na + 0 + 2) ≤ s.cur ∧ s.HasRoom (s.na + 0 + 2)) ∧
    (let s := { decodingOf headerF [0xc7] with sa := 40 }; s.cur < 7 + s.sa + (s.na + 0 + 2)) ∧
    (let s := { decodingOf headerF [0xc6] with sa := 40, caps := ⟨some 1, none⟩ }
     6 + s.sa + (s.na + 0 + 2) ≤ s.cur ∧ ¬ s.HasRoom (s.na + 0 + 2)) :=
  ⟨⟨rfl, by decide, hasRoom_of_within (by decide)⟩, by decide, by decide, fun h => absurd (h 1 rfl) (by decide)⟩

theorem witness_ReservedBytesRaise :
    Instr.reserved98 7 ∈ [Instr.reserved91, Instr.reserved92 7, Instr.reserved94 7, Instr.reserved98 7] := by decide
theorem witness_BackrefSourceBelowCursor : refDistance 7 7 (decodingOf headerF []) ≤ (decodingOf headerF []).cur := by decide
/-- An overlapping copy, which no Backref makes. -/
theorem witness_CopyIsByteByByte :
    (decodingOf headerA []).cur = (decodingOf headerA []).out.length ∧ 45 < (decodingOf headerA []).cur ∧
    (match copyInto .out .out 5 45 (decodingOf headerA []) with
     | .ok t => t.payOut
     | .error _ => []) = [1, 0, 0, 1, 0] := by decide
theorem witness_EveryOpcodeAdvancesOrFaults :
    (Instr.bref 7 7).wellFormed = true ∧ (Instr.lit 1 [0]).wellFormed = true ∧
    (decodingOf headerF []).cur = (decodingOf headerF []).out.length := by decide
theorem witness_OpcodesWriteOnlyOut :
    exec (.zrun 2) (decodingOf headerF [0x80]) =
      .next { decodingOf headerF [0x80] with out := contextOf headerF ++ [0, 0], cur := 50, ip := 1 } ∧
    (decodingOf headerF [0x80]).phase = .decoding := ⟨rfl, rfl⟩
theorem witness_ChainSurvivesOtherOpcodes :
    exec .stop { decodingOf headerF [0x90] with sa := 8, chainOpen := true } =
      .next { decodingOf headerF [0x90] with sa := 8, chainOpen := true, stopSeen := true, ip := 1 } := rfl
theorem witness_OnlyStopSetsStopSeen :
    exec .stop (decodingOf headerF [0x90]) = .next { decodingOf headerF [0x90] with stopSeen := true, ip := 1 } := rfl
theorem witness_MemWriteThenRead :
    memWrite .strOut 1 7 (encodingOf headerF [] 0 [5, 6]) = .ok (encodingOf headerF [] 0 [5, 7]) ∧
    memWrite .strOut 2 7 (encodingOf headerF [] 0 [5, 6]) = .ok (encodingOf headerF [] 0 [5, 6, 7]) := ⟨rfl, rfl⟩
/-- The three outcomes of a running command: it goes on, it completes, it faults. -/
theorem witness_ReportsOnlyAtTheEnd :
    (decodingOf headerF [0x90]).phase ≠ .idle ∧ nextIs (step (decodingOf headerF [0x90])) (fun t => t.phase == .decoding) = true ∧
    nextIs (step (decodingOf headerF [])) (fun t => t.phase == .idle && t.err == 0) = true ∧
    nextIs (step (decodingOf headerF [0x91])) (fun t => t.phase == .idle && t.err == 4) = true := by decide
theorem witness_CapacitiesNeverChange : step State.reset = .next State.reset := rfl
theorem witness_InputsNeverWritten :
    (decodingOf headerF [0x90]).phase ≠ .idle ∧
    nextIs (step (decodingOf headerF [0x90])) (fun t => t.err == 0 && t.ctx == contextOf headerF) = true := by decide

theorem witness_OverlappingBuffersRefused :
    (issuing (buildOf headerF)).Issues (buildOf headerF) [] ∧ (buildOf headerF).Disjoint ∧
    (issuing (.build ⟨0, headerF⟩ ⟨39, 48⟩)).Issues (.build ⟨0, headerF⟩ ⟨39, 48⟩) [] ∧
    ¬ (Command.build ⟨0, headerF⟩ ⟨39, 48⟩).Disjoint := by
  refine ⟨⟨rfl, rfl⟩, disjoint_build, ⟨rfl, rfl⟩, fun h => ?_⟩
  exact (List.pairwise_cons.1 h).1 ⟨39, 48⟩ (by simp) 39 (by decide)
theorem witness_ShortHeaderFaults :
    (issuing (buildOf (headerF.take 39))).Issues (buildOf (headerF.take 39)) [] ∧
    (buildOf (headerF.take 39)).Disjoint ∧ (buildOf (headerF.take 39)).header.length < 40 :=
  ⟨⟨rfl, rfl⟩, disjoint_two (by decide), by decide⟩
theorem witness_BuildResult :
    (issuing (buildOf headerF)).Issues (buildOf headerF) [] ∧ (buildOf headerF).Disjoint ∧ 40 ≤ headerF.length :=
  ⟨⟨rfl, rfl⟩, disjoint_build, by decide⟩
theorem witness_BuildDependsOnAddressesOnly :
    (issuing (buildOf headerF)).Issues (buildOf headerF) [] ∧
    (issuing (buildOf (List.replicate 8 0 ++ headerF.drop 8))).Issues (buildOf (List.replicate 8 0 ++ headerF.drop 8)) [] ∧
    40 ≤ headerF.length ∧ 40 ≤ (List.replicate 8 (0 : Byte) ++ headerF.drop 8).length ∧ (∀ k, 8 ≤ k → k < 40 → headerF[k]? = (List.replicate 8 0 ++ headerF.drop 8)[k]?) ∧
    nextIs (step (issuing (buildOf headerF))) (fun t => t.status == 0) = true ∧
    nextIs (step (issuing (buildOf (List.replicate 8 0 ++ headerF.drop 8)))) (fun t => t.status == 0) = true := by
  refine ⟨⟨rfl, rfl⟩, ⟨rfl, rfl⟩, by decide, by decide, fun k h1 h2 => ?_, by decide, by decide⟩
  interval_cases k <;> rfl
theorem witness_CompressStarts :
    (issuing (compressOf headerF [0x55])).Issues (compressOf headerF [0x55]) [] ∧ (compressOf headerF [0x55]).Disjoint ∧
    40 ≤ headerF.length := ⟨⟨rfl, rfl⟩, disjoint_compress 1 0x55 (by decide), by decide⟩
theorem witness_DecompressStarts :
    (issuing (decompressOf headerF [1, 0x55])).Issues (decompressOf headerF [1, 0x55]) [] ∧
    (decompressOf headerF [1, 0x55]).Disjoint ∧ 40 ≤ headerF.length := ⟨⟨rfl, rfl⟩, disjoint_decompress, by decide⟩
theorem witness_CommandsAreStateless :
    (issuing (buildOf headerF)).Issues (buildOf headerF) [] ∧
    { issuing (buildOf headerF) with na := 5, stopSeen := true, out := [1], status := 9 }.Issues (buildOf headerF) [] ∧
    (issuing (buildOf headerF)).caps =
      ({ issuing (buildOf headerF) with na := 5, stopSeen := true, out := [1], status := 9 } : State).caps ∧
    nextIs (runSteps 1 (issuing (buildOf headerF))) (fun t => t.result == .context (contextOf headerF)) = true :=
  ⟨⟨rfl, rfl⟩, ⟨rfl, rfl⟩, rfl, by decide⟩

theorem witness_ZeroRunLengthIsMaximal :
    zeroRunLength (List.replicate 18 0) 0 = 17 ∧ zeroRunLength [0, 0, 5] 0 = 2 ∧ zeroRunLength [0] 0 = 1 := by decide
theorem witness_LongestMatchIsLastLongest :
    (∀ j l, ¬ ValidMatch [1, 2, 3] [3] 0 3 j l) ∧ ValidMatch [1, 2, 1, 2] [1, 2] 0 4 2 2 ∧
    longestMatch [1, 2, 1, 2] [1, 2] 0 4 = (2, 2) := by
  refine ⟨fun j l ⟨h1, _, h3, _⟩ => ?_, ⟨by decide, by decide, by decide, fun t ht => ?_⟩, by decide⟩
  · simp at h3; omega
  · interval_cases t <;> rfl
theorem witness_SelectRule :
    TakesMatch 2 1 9 ∧ TakesMatch 3 2 10 ∧ (¬ TakesMatch 4 4 5 ∧ 4 > 1) ∧ (¬ TakesMatch 2 1 10 ∧ 1 ≤ 1) := by
  refine ⟨⟨by decide, by decide⟩, ⟨by decide, by decide⟩, ⟨?_, by decide⟩, ⟨?_, by decide⟩⟩ <;>
    · rintro ⟨h1, h2⟩; omega

theorem fits_of_within {c : Option Nat} {m : Nat} (h : within c m = true) : Fits c m := (within_iff _ _).1 h

/-- V18 at I = 6, with exactly enough room for its byte. -/
def matchState : State :=
  { encodingOf headerF [0xab, 0xcd, 1, 0xab, 0xcd, 2, 0xab, 0xcd] 6 [3, 0xab, 0xcd, 1, 0xc1, 1, 2] with caps := ⟨none, some 8⟩ }
/-- V15's first pass: 18 zeros. -/
def zeroState : State := { encodingOf headerF (List.replicate 18 0) 0 [] with caps := ⟨none, some 1⟩ }
/-- V11: one literal byte. -/
def literalState : State := { encodingOf headerF [0x55] 0 [] with caps := ⟨none, some 2⟩ }
/-- A literal that extends an open run. -/
def openRunState : State :=
  { encodingOf headerF [0x54, 0x55] 1 [1, 0x54] with litActive := true, caps := ⟨none, some 3⟩ }

theorem matchState_best : matchState.bestNow = (2, 51) ∧ matchState.zNow = 0 ∧ matchState.distNow = 3 := by decide +kernel
theorem zeroState_best : zeroState.bestNow = (5, 40) ∧ zeroState.zNow = 17 ∧ zeroState.distNow = 8 := by decide +kernel
theorem literalState_best : literalState.bestNow = (0, 0) ∧ literalState.zNow = 0 := by decide +kernel
theorem openRunState_best : openRunState.bestNow = (0, 0) ∧ openRunState.zNow = 0 := by decide +kernel

theorem takes_matchState : TakesMatch matchState.bestNow.1 matchState.zNow matchState.distNow := by
  rw [matchState_best.1, matchState_best.2.1, matchState_best.2.2]; exact ⟨by decide, by decide⟩
theorem takes_not_zeroState : ¬ TakesMatch zeroState.bestNow.1 zeroState.zNow zeroState.distNow := by
  rw [zeroState_best.1, zeroState_best.2.1]; rintro ⟨h, _⟩; exact absurd h (by decide)
theorem takes_not_literalState : ¬ TakesMatch literalState.bestNow.1 literalState.zNow literalState.distNow := by
  rw [literalState_best.1, literalState_best.2]; rintro ⟨h, _⟩; exact absurd h (by decide)
theorem takes_not_openRunState : ¬ TakesMatch openRunState.bestNow.1 openRunState.zNow openRunState.distNow := by
  rw [openRunState_best.1, openRunState_best.2]; rintro ⟨h, _⟩; exact absurd h (by decide)

theorem witness_MatchPass :
    matchState.HasByte ∧ TakesMatch matchState.bestNow.1 matchState.zNow matchState.distNow ∧
    Fits matchState.caps.maxStreamOut (matchState.olen + (backrefBytes matchState.bestNow.1 matchState.distNow).length) := by
  refine ⟨⟨rfl, by decide⟩, takes_matchState, ?_⟩
  rw [matchState_best.1, matchState_best.2.2]; exact fits_of_within (by decide)
theorem witness_ZeroRunPass :
    zeroState.HasByte ∧ ¬ TakesMatch zeroState.bestNow.1 zeroState.zNow zeroState.distNow ∧ zeroState.zNow > 1 ∧
    Fits zeroState.caps.maxStreamOut (zeroState.olen + 1) :=
  ⟨⟨rfl, by decide⟩, takes_not_zeroState, by rw [zeroState_best.2.1]; decide, fits_of_within (by decide)⟩
theorem witness_LiteralPass :
    (literalState.HasByte ∧ literalState.payIn[literalState.i]? = some 0x55 ∧
      ¬ TakesMatch literalState.bestNow.1 literalState.zNow literalState.distNow ∧ literalState.zNow ≤ 1 ∧
      literalState.StartsRun ∧ Fits literalState.caps.maxStreamOut (literalState.olen + 2)) ∧
    (openRunState.HasByte ∧ openRunState.payIn[openRunState.i]? = some 0x55 ∧
      ¬ TakesMatch openRunState.bestNow.1 openRunState.zNow openRunState.distNow ∧ openRunState.zNow ≤ 1 ∧
      openRunState.Extends 1 ∧ Fits openRunState.caps.maxStreamOut (openRunState.olen + 1)) :=
  ⟨⟨⟨rfl, by decide⟩, rfl, takes_not_literalState, by rw [literalState_best.2]; decide, .inl rfl,
      fits_of_within (by decide)⟩,
   ⟨⟨rfl, by decide⟩, rfl, takes_not_openRunState, by rw [openRunState_best.2]; decide, ⟨rfl, rfl, by decide⟩,
      fits_of_within (by decide)⟩⟩

/-- The invariant of COMPRESS's loop for the states above. -/
theorem encodingInv_of (pay str : List Byte) (i : Nat) (cap : Option Nat) (h : i ≤ pay.length) (hc : Fits cap str.length) :
    { encodingOf headerF pay i str with caps := ⟨none, cap⟩ }.EncodingInv :=
  { header := by simp [encodingOf, headerF], context := rfl, status := rfl, faultPos := rfl, result := rfl,
    index := h, window := rfl, literalRun := fun h => by simp [encodingOf, State.reset] at h, capacity := hc }

/-- The open run's invariant. -/
theorem openRun_inv (cap : Option Nat) (hc : Fits cap 2) : { openRunState with caps := ⟨none, cap⟩ }.EncodingInv :=
  { header := by simp [openRunState, encodingOf, headerF], context := rfl, status := rfl, faultPos := rfl, result := rfl,
    index := (by decide : 1 ≤ 2), window := rfl, literalRun := fun _ => ⟨1, rfl, by decide, by decide, rfl⟩, capacity := hc }

theorem not_fits {c m : Nat} (h : c < m) : ¬ Fits (some c) m := fun hf => absurd (hf c rfl) (by omega)

/-- Each clause one byte short of room. -/
theorem witness_EncoderOverflow :
    (let s := { matchState with caps := ⟨none, some 7⟩ }
     s.HasByte ∧ s.EncodingInv ∧ TakesMatch s.bestNow.1 s.zNow s.distNow ∧
       ¬ Fits s.caps.maxStreamOut (s.olen + (backrefBytes s.bestNow.1 s.distNow).length)) ∧
    (let s := { zeroState with caps := ⟨none, some 0⟩ }
     s.HasByte ∧ s.EncodingInv ∧ ¬ TakesMatch s.bestNow.1 s.zNow s.distNow ∧ s.zNow > 1 ∧
       ¬ Fits s.caps.maxStreamOut (s.olen + 1)) ∧
    (let s := { literalState with caps := ⟨none, some 1⟩ }
     s.HasByte ∧ s.EncodingInv ∧ ¬ TakesMatch s.bestNow.1 s.zNow s.distNow ∧ s.zNow ≤ 1 ∧ s.StartsRun ∧
       ¬ Fits s.caps.maxStreamOut (s.olen + 2)) ∧
    (let s := { openRunState with caps := ⟨none, some 2⟩ }
     s.HasByte ∧ s.EncodingInv ∧ ¬ TakesMatch s.bestNow.1 s.zNow s.distNow ∧ s.zNow ≤ 1 ∧ s.Extends 1 ∧
       ¬ Fits s.caps.maxStreamOut (s.olen + 1)) := by
  refine ⟨⟨⟨rfl, by decide⟩, encodingInv_of _ _ _ _ (by decide) (fits_of_within (by decide)), takes_matchState, ?_⟩,
    ⟨⟨rfl, by decide⟩, encodingInv_of _ _ _ _ (by decide) (fits_of_within (by decide)), takes_not_zeroState,
      ?_, not_fits (by decide)⟩,
    ⟨⟨rfl, by decide⟩, encodingInv_of _ _ _ _ (by decide) (fits_of_within (by decide)), takes_not_literalState, ?_,
      .inl rfl, not_fits (by decide)⟩,
    ⟨⟨rfl, by decide⟩, openRun_inv _ (fits_of_within (by decide)), takes_not_openRunState, ?_, ⟨rfl, rfl, by decide⟩,
      not_fits (by decide)⟩⟩
  · have e : ({ matchState with caps := ⟨none, some 7⟩ } : State).bestNow = (2, 51) ∧
        ({ matchState with caps := ⟨none, some 7⟩ } : State).distNow = 3 := ⟨matchState_best.1, matchState_best.2.2⟩
    rw [e.1, e.2]; exact not_fits (by decide)
  · have e : ({ zeroState with caps := ⟨none, some 0⟩ } : State).zNow = 17 := zeroState_best.2.1
    rw [e]; decide
  · have e : ({ literalState with caps := ⟨none, some 1⟩ } : State).zNow = 0 := literalState_best.2
    rw [e]; decide
  · have e : ({ openRunState with caps := ⟨none, some 2⟩ } : State).zNow = 0 := openRunState_best.2
    rw [e]; decide

theorem witness_CompressCompletes :
    (encodingOf headerF [0x55] 1 [1, 0x55]).phase = .encoding ∧
    (encodingOf headerF [0x55] 1 [1, 0x55]).i = (encodingOf headerF [0x55] 1 [1, 0x55]).plen := by decide
theorem witness_BackrefChainMeansItsMatch : 2 ≤ 20 ∧ 20 ≤ 300 ∧ disassemble (backrefBytes 20 300) =
    .ok [.brext 1 15, .brext 1 15, .brext 0 5, .bref 2 0] := by decide
theorem witness_ShortBackrefByte : 2 ≤ 9 ∧ 9 ≤ 16 ∧ 9 - 2 ≤ 7 ∧ 16 - 9 ≤ 7 ∧ backrefBytes 9 16 = [0xff] := by decide

/-- V11 run to its end: COMPRESS of one byte takes three steps. -/
theorem compress_one_byte :
    nextIs (runSteps 3 (issuing (compressOf headerF [0x55])))
      (fun t => t.phase == .idle && t.pending == [] && t.result == .stream [1, 0x55]) = true := by decide +kernel

/-- A run that satisfies a test has a next state that does. -/
theorem exists_of_nextIs {o : Host.Outcome State Fault Refusal} {p : State → Bool} (h : nextIs o p = true) :
    ∃ t, o = .next t ∧ p t = true := by
  match o, h with
  | .next t, h => exact ⟨t, rfl, h⟩

theorem witness_CompressedStreamShape :
    (issuing (compressOf headerF [0x55])).Issues (compressOf headerF [0x55]) [] ∧
    ∃ t, runSteps 3 (issuing (compressOf headerF [0x55])) = .next t ∧ t.done ∧ t.result = .stream [1, 0x55] := by
  obtain ⟨t, h, p⟩ := exists_of_nextIs compress_one_byte
  exact ⟨⟨rfl, rfl⟩, t, h, by simpa [State.done, and_assoc] using p⟩
theorem witness_ZeroPayloadIsOneByte :
    (issuing (compressOf headerF (List.replicate 17 0))).Issues (compressOf headerF (List.replicate 17 0)) [] ∧
    (compressOf headerF (List.replicate 17 0)).Disjoint ∧ 40 ≤ headerF.length ∧
    Fits (issuing (compressOf headerF (List.replicate 17 0))).caps.maxStreamOut 1 :=
  ⟨⟨rfl, rfl⟩, disjoint_compress 17 0 (by decide), by decide, fits_of_within (by decide)⟩
theorem witness_CompressTerminates : matchState.phase = .encoding ∧ matchState.EncodingInv :=
  ⟨rfl, encodingInv_of _ _ _ _ (by decide) (fits_of_within (by decide))⟩
theorem witness_DecompressTerminates :
    (decodingOf headerF [0x90, 0xa0]).phase = .decoding ∧
    (decodingOf headerF [0x90, 0xa0]).cur = (decodingOf headerF [0x90, 0xa0]).out.length := ⟨rfl, rfl⟩
theorem witness_RoundTrip :
    (issuing (compressOf headerF [0x55])).Issues (compressOf headerF [0x55]) [] ∧
    (∃ t, runSteps 3 (issuing (compressOf headerF [0x55])) = .next t ∧ t.done ∧ t.result = .stream [1, 0x55]) ∧
    (issuing (decompressOf headerF [1, 0x55])).Issues (decompressOf headerF [1, 0x55]) [] ∧
    (decompressOf headerF [1, 0x55]).Disjoint ∧ 40 ≤ headerF.length ∧
    Fits (issuing (decompressOf headerF [1, 0x55])).caps.maxPayloadOut 1 :=
  ⟨⟨rfl, rfl⟩, witness_CompressedStreamShape.2, ⟨rfl, rfl⟩, disjoint_decompress, by decide, fits_of_within (by decide)⟩

/-- A state of DECOMPRESS's loop that meets the invariant and steps on. -/
theorem witness_StepKeepsInv :
    (decodingOf headerF [0x90]).Inv ∧
    step (decodingOf headerF [0x90]) = .next { decodingOf headerF [0x90] with stopSeen := true, ip := 1 } := by
  refine ⟨⟨fun h => ?_, fun h => ?_, fun _ => ?_⟩, rfl⟩
  · simp [decodingOf] at h
  · simp [decodingOf] at h
  · exact { header := by simp [decodingOf, headerF], context := rfl, status := rfl, faultPos := rfl, result := rfl,
            pointer := by decide, cursor := rfl, prefix48 := by decide, length8 := ⟨0, rfl⟩, distance8 := ⟨0, rfl⟩,
            chain := fun _ => ⟨rfl, rfl⟩, capacity := fits_of_within (by decide) }
/-- A command's start enters the loop; a ZeroRun stays in it. -/
theorem witness_CursorIsOutLength :
    nextIs (step (issuing (decompressOf headerF [1, 0x55])))
      (fun t => t.phase == .decoding && t.cur == 48 && t.out.length == 48) = true ∧
    (decodingOf headerF [0x82]).cur = (decodingOf headerF [0x82]).out.length ∧
    nextIs (step (decodingOf headerF [0x82])) (fun t => t.phase == .decoding && t.cur == 52 && t.out.length == 52) = true := by
  decide
theorem witness_InvStatesNeverFault : (decodingOf headerF [0x90]).Inv := witness_StepKeepsInv.1

end Sys2Proof.Tests
end

section
/-! PROOF. O25: what a MemWrite changes (00_scope.md R11, 20_memory.md R55, R61). -/

namespace Sys2Proof.Machine

/-- What a MemWrite that succeeds can do: rewrite a byte its destination has, or append one. -/
theorem memWrite_ok {d : Dest} {a : Nat} {b : Byte} {s t : State} (h : memWrite d a b s = .ok t) :
    (a < (s.space d.space).length ∧ t = s.setDest d ((s.space d.space).set a b)) ∨
    (a = (s.space d.space).length ∧ t = s.extend d [b]) := by
  unfold memWrite at h
  split at h
  · next hlt => exact .inl ⟨hlt, (Except.ok.inj h).symm⟩
  · split at h
    · next heq => exact .inr ⟨heq, (Except.ok.inj h).symm⟩
    · cases h

/-- The destination's bytes after a MemWrite: the byte written at its index, the old ones elsewhere. -/
theorem memWrite_getElem? {d : Dest} {a : Nat} {b : Byte} {s t : State} (h : memWrite d a b s = .ok t) (a' : Nat) :
    (t.space d.space)[a']? = if a' = a then some b else (s.space d.space)[a']? := by
  rcases memWrite_ok h with ⟨hlt, rfl⟩ | ⟨rfl, rfl⟩
  · by_cases ha : a' = a
    · simp [setDest_space_self, ha, hlt]
    · simp [setDest_space_self, ha, List.getElem?_set_ne (Ne.symm ha)]
  · rcases Nat.lt_trichotomy a' (s.space d.space).length with hlt | rfl | hgt
    · simp [extend_space_self, List.getElem?_append_left hlt, hlt.ne]
    · simp [extend_space_self]
    · simp [extend_space_self, List.getElem?_eq_none, hgt.ne', hgt.le, Nat.succ_le_of_lt hgt]

/-- A MemWrite leaves every other space alone; PAY_OUT is a part of OUT. -/
theorem memWrite_space_other {d : Dest} {a : Nat} {b : Byte} {s t : State} (h : memWrite d a b s = .ok t) (sp : Space)
    (hsp : sp ≠ d.space) (hp : d = .out → sp ≠ .payOut) : t.space sp = s.space sp := by
  rcases memWrite_ok h with ⟨-, rfl⟩ | ⟨-, rfl⟩
  · exact setDest_space_other d _ s sp hsp hp
  · exact extend_space_other d _ s sp hsp hp

/-- A MemRead depends on the byte at its index only. -/
theorem memRead_congr {sp : Space} {a : Nat} {s t : State} (h : (t.space sp)[a]? = (s.space sp)[a]?) :
    memRead sp a t = memRead sp a s := by
  simp only [memRead, h]

/-- Settles O25: a MemWrite rewrites or appends one byte of its destination. -/
theorem memWriteThenRead : Obligations.MemWriteThenRead := by
  intro d a b s t h
  refine ⟨?same, fun a' ha => memRead_congr ?other, fun sp a' hsp hp => memRead_congr ?space⟩
  case same => exact (memRead_ok_iff _ _ _ _).2 (by rw [memWrite_getElem? h, if_pos rfl])
  case other => rw [memWrite_getElem? h, if_neg ha]
  case space => rw [memWrite_space_other h sp hsp hp]

end Sys2Proof.Machine
end

section
/-! PROOF. What a step leaves unchanged: one statement per engine of the fields an operation that completes can change,
then what a step can do, and from it O28 (00_scope.md R7, 10_state.md R37). -/

namespace Sys2Proof.Machine

/-- A computation that completes has completed its first part, and then the rest from there. -/
theorem bind_eq_ok {ε α β : Type} {x : Except ε α} {f : α → Except ε β} {b : β} (h : x >>= f = .ok b) :
    ∃ a, x = .ok a ∧ f a = .ok b := by
  cases x with
  | error e => cases h
  | ok a => exact ⟨a, rfl, h⟩

/-! ### Which fields an engine's operation can change -/

/-- The dictionary_builder's one field is CTX (20_memory.md R50). -/
def ChangedByBuilder (s t : State) : Prop := t = { s with ctx := t.ctx }

/-- The lz77_encoder's fields: STR_OUT, I, the open run and the match state (10_state.md R24, R26 to R28). -/
def ChangedByEncoder (s t : State) : Prop :=
  t = { s with
    strOut := t.strOut, i := t.i, litActive := t.litActive, litHdr := t.litHdr, z := t.z, bestL := t.bestL,
    bestJ := t.bestJ }

/-- The lz77_decoder's fields: OUT and CUR, IP, the accumulators and the two flags (R29 to R34). -/
def ChangedByDecoder (s t : State) : Prop :=
  t = { s with
    out := t.out, ip := t.ip, cur := t.cur, na := t.na, sa := t.sa, chainOpen := t.chainOpen,
    stopSeen := t.stopSeen }

theorem ChangedByBuilder.trans {s t u : State} (h : ChangedByBuilder s t) (h' : ChangedByBuilder t u) :
    ChangedByBuilder s u := Eq.trans h' (by rw [h])

theorem ChangedByEncoder.trans {s t u : State} (h : ChangedByEncoder s t) (h' : ChangedByEncoder t u) :
    ChangedByEncoder s u := Eq.trans h' (by rw [h])

theorem ChangedByDecoder.trans {s t u : State} (h : ChangedByDecoder s t) (h' : ChangedByDecoder t u) :
    ChangedByDecoder s u := Eq.trans h' (by rw [h])

theorem ChangedByBuilder.caps {s t : State} (h : ChangedByBuilder s t) : t.caps = s.caps := by rw [h]
theorem ChangedByEncoder.caps {s t : State} (h : ChangedByEncoder s t) : t.caps = s.caps := by rw [h]
theorem ChangedByDecoder.caps {s t : State} (h : ChangedByDecoder s t) : t.caps = s.caps := by rw [h]

/-! ### The dictionary_builder -/

/-- A copy that completes has appended as many bytes as it was to copy. -/
theorem copyInto_eq_ok {src : Space} {d : Dest} {n base : Nat} {s t : State} (h : copyInto src d n base s = .ok t) :
    ∃ bs, bs.length = n ∧ t = s.extend d bs := by
  induction n generalizing base s with
  | zero => exact ⟨[], rfl, by rw [extend_nil]; exact (Except.ok.inj h).symm⟩
  | succ n ih =>
    rw [copyInto] at h
    split at h
    · next b _ =>
      obtain ⟨bs, hlen, rfl⟩ := ih h
      exact ⟨b :: bs, by rw [List.length_cons, hlen], by rw [append_eq, extend_extend, List.singleton_append]⟩
    · cases h

theorem changedByBuilder_of_buildContext {s t : State} (h : buildContext s = .ok t) : ChangedByBuilder s t := by
  unfold buildContext at h
  split at h
  · cases h
  · obtain ⟨u, hu, h⟩ := bind_eq_ok h
    obtain ⟨v, hv, h⟩ := bind_eq_ok h
    obtain ⟨bs, -, rfl⟩ := copyInto_eq_ok hu
    obtain ⟨bs', -, rfl⟩ := copyInto_eq_ok hv
    rw [← Except.ok.inj h, appendAll_eq]
    rfl

/-! ### The lz77_encoder -/

theorem emit_eq_ok {b : Byte} {s t : State} (h : emit b s = .ok t) : t = s.setDest .strOut (s.strOut ++ [b]) := by
  unfold emit at h
  split at h
  · exact (Except.ok.inj h).symm
  · cases h

theorem emitAll_eq_ok {bs : List Byte} {s t : State} (h : emitAll bs s = .ok t) :
    t = s.setDest .strOut (s.strOut ++ bs) := by
  induction bs generalizing s with
  | nil => rw [List.append_nil, ← Except.ok.inj h]; rfl
  | cons b bs ih =>
    rw [emitAll] at h
    split at h
    · next u hu =>
      rw [ih h, emit_eq_ok hu, setDest_setDest, setDest_strOut_strOut, List.append_assoc, List.singleton_append]
    · cases h

theorem changedByEncoder_of_openRun {s t : State} (h : openRun s = .ok t) : ChangedByEncoder s t := by
  unfold openRun at h
  split at h
  · cases h; rfl
  · rw [emit_eq_ok h]; rfl
  · cases h

theorem changedByEncoder_of_bumpCount {s t : State} (h : bumpCount s = .ok t) : ChangedByEncoder s t := by
  unfold bumpCount at h
  split at h
  · rcases memWrite_ok h with ⟨-, rfl⟩ | ⟨-, rfl⟩ <;> rfl
  · cases h

theorem changedByEncoder_of_emitLiteral {x : Byte} {s t : State} (h : emitLiteral x s = .ok t) :
    ChangedByEncoder s t := by
  obtain ⟨u, hu, h⟩ := bind_eq_ok h
  obtain ⟨v, hv, h⟩ := bind_eq_ok h
  have huv : ChangedByEncoder u v := by rw [emit_eq_ok hv]; rfl
  exact ((changedByEncoder_of_openRun hu).trans huv).trans (changedByEncoder_of_bumpCount h)

theorem changedByEncoder_of_emitZeroRun {z : Nat} {s t : State} (h : emitZeroRun z s = .ok t) :
    ChangedByEncoder s t := by
  obtain ⟨u, hu, h⟩ := bind_eq_ok h
  rw [← Except.ok.inj h, emit_eq_ok hu]
  rfl

theorem changedByEncoder_of_emitBackref {l d : Nat} {s t : State} (h : emitBackref l d s = .ok t) :
    ChangedByEncoder s t := by
  obtain ⟨u, hu, h⟩ := bind_eq_ok h
  rw [← Except.ok.inj h, emitAll_eq_ok hu]
  rfl

theorem changedByEncoder_consume (n : Nat) (s : State) : ChangedByEncoder s (s.consume n) := rfl

theorem changedByEncoder_of_emitChoice {c : Choice} {s t : State} (h : emitChoice c s = .ok t) :
    ChangedByEncoder s t := by
  cases c with
  | backref =>
    obtain ⟨u, hu, h⟩ := bind_eq_ok h
    rw [← Except.ok.inj h]
    exact (changedByEncoder_of_emitBackref hu).trans (changedByEncoder_consume _ u)
  | zeroRun =>
    obtain ⟨u, hu, h⟩ := bind_eq_ok h
    rw [← Except.ok.inj h]
    exact (changedByEncoder_of_emitZeroRun hu).trans (changedByEncoder_consume _ u)
  | literal =>
    obtain ⟨x, -, h⟩ := bind_eq_ok h
    obtain ⟨u, hu, h⟩ := bind_eq_ok h
    rw [← Except.ok.inj h]
    exact (changedByEncoder_of_emitLiteral hu).trans (changedByEncoder_consume _ u)

theorem changedByEncoder_of_encodeStep {s t : State} (h : encodeStep s = .ok t) : ChangedByEncoder s t :=
  have hscan : ChangedByEncoder s (scan s) := rfl
  hscan.trans (changedByEncoder_of_emitChoice h)

/-! ### The lz77_decoder -/

/-- What an operation of the decoder can do: change the decoder's fields, or enter the fault it raises. -/
theorem settle_next_changedByDecoder {u : Bool} {r : Except Halt State} {s t : State} (h : settle u s r = .next t)
    (hok : r = .ok t → ChangedByDecoder s t) : ChangedByDecoder s t ∨ ∃ e p, t = s.raise e p u :=
  (settle_next h).imp hok fun ⟨e, p, _, ht⟩ => ⟨e, p, ht⟩

theorem raiseReserved_next {s t : State} (h : raiseReserved s = .next t) :
    t = s.raise .reservedOpcode s.ip s.stopSeen := (Host.Outcome.next.inj h).symm

/-- What an opcode can do: change the decoder's fields, or enter the fault it raises. -/
theorem exec_next {i : Instr} {s t : State} (h : exec i s = .next t) :
    ChangedByDecoder s t ∨ ∃ e p, t = s.raise e p s.stopSeen := by
  cases i with
  | lit k ds =>
    refine settle_next_changedByDecoder h fun hr => ?_
    obtain ⟨-, -, hr⟩ := bind_eq_ok hr
    obtain ⟨-, -, hr⟩ := bind_eq_ok hr
    rw [← Except.ok.inj hr, appendAll_eq]
    rfl
  | zrun c =>
    refine settle_next_changedByDecoder h fun hr => ?_
    obtain ⟨-, -, hr⟩ := bind_eq_ok hr
    rw [← Except.ok.inj hr, appendAll_eq]
    rfl
  | bref m q =>
    refine settle_next_changedByDecoder h fun hr => ?_
    obtain ⟨-, -, hr⟩ := bind_eq_ok hr
    obtain ⟨-, -, hr⟩ := bind_eq_ok hr
    obtain ⟨u, hu, hr⟩ := bind_eq_ok hr
    obtain ⟨bs, -, rfl⟩ := copyInto_eq_ok hu
    rw [← Except.ok.inj hr]
    rfl
  | stop => exact .inl (by rw [← Host.Outcome.next.inj h]; rfl)
  | brext f v => exact .inl (by rw [← Host.Outcome.next.inj h]; rfl)
  | reserved91 => exact .inr ⟨_, _, raiseReserved_next h⟩
  | reserved92 x => exact .inr ⟨_, _, raiseReserved_next h⟩
  | reserved94 x => exact .inr ⟨_, _, raiseReserved_next h⟩
  | reserved98 x => exact .inr ⟨_, _, raiseReserved_next h⟩

/-! ### A step -/

/-- What the start of a command can do: build the context and go on from it, or enter the fault it raises. -/
theorem startCommand_next {c : Command} {s t : State} (h : startCommand c s = .next t) :
    (∃ u, ChangedByBuilder (s.initial c) u ∧ t = u.begin c) ∨ ∃ e p, t = (s.initial c).raise e p false := by
  unfold startCommand at h
  split at h
  · cases h
  · rcases settle_next h with hr | ⟨e, p, -, ht⟩
    · obtain ⟨u, hu, hr⟩ := bind_eq_ok hr
      exact .inl ⟨u, changedByBuilder_of_buildContext hu, (Except.ok.inj hr).symm⟩
    · exact .inr ⟨e, p, ht⟩

/-- What a step of a running COMPRESS can do: a pass, its fault, or the command's completion. -/
theorem runEncoder_next {s t : State} (h : runEncoder s = .next t) :
    ChangedByEncoder s t ∨ (∃ e p, t = s.raise e p false) ∨ t = s.finish (.stream s.strOut) false := by
  unfold runEncoder at h
  split at h
  · rcases settle_next h with hr | ⟨e, p, -, ht⟩
    · exact .inl (changedByEncoder_of_encodeStep hr)
    · exact .inr (.inl ⟨e, p, ht⟩)
  · exact .inr (.inr (Host.Outcome.next.inj h).symm)

/-- What the end of a stream can do: complete the command, or enter the fault of an open chain. -/
theorem endOfStream_next {s t : State} (h : endOfStream s = .next t) :
    t = s.finish (.payload s.payOut) s.stopSeen ∨ ∃ e p, t = s.raise e p s.stopSeen := by
  rcases settle_next h with hr | ⟨e, p, -, ht⟩
  · split at hr
    · cases hr
    · exact .inl (Except.ok.inj hr).symm
  · exact .inr ⟨e, p, ht⟩

theorem begin_caps (c : Command) (s : State) : (s.begin c).caps = s.caps := by cases c <;> rfl

theorem startCommand_caps {c : Command} {s t : State} (h : startCommand c s = .next t) : t.caps = s.caps := by
  rcases startCommand_next h with ⟨u, hu, rfl⟩ | ⟨e, p, rfl⟩
  · rw [begin_caps, hu.caps, initial_caps]
  · rw [raise_caps, initial_caps]

theorem runEncoder_caps {s t : State} (h : runEncoder s = .next t) : t.caps = s.caps := by
  rcases runEncoder_next h with hp | ⟨e, p, rfl⟩ | rfl
  · exact hp.caps
  · exact raise_caps s e p false
  · exact finish_caps s _ false

theorem exec_caps {i : Instr} {s t : State} (h : exec i s = .next t) : t.caps = s.caps := by
  rcases exec_next h with hd | ⟨e, p, rfl⟩
  · exact hd.caps
  · exact raise_caps s e p _

theorem endOfStream_caps {s t : State} (h : endOfStream s = .next t) : t.caps = s.caps := by
  rcases endOfStream_next h with rfl | ⟨e, p, rfl⟩
  · exact finish_caps s _ _
  · exact raise_caps s e p _

/-! ### A step, by what the core is doing (10_state.md R20) -/

theorem step_waiting {s : State} (hp : s.phase = .idle) (hq : s.pending = []) : step s = .next s := by
  simp only [step, hp, hq]

theorem step_issued {s : State} {c : Command} {rest : List Command} (hp : s.phase = .idle)
    (hq : s.pending = c :: rest) : step s = startCommand c { s with pending := rest } := by
  simp only [step, hp, hq]

theorem step_encoding {s : State} (hp : s.phase = .encoding) : step s = runEncoder s := by
  simp only [step, hp]

theorem step_fetched {s : State} {i : Instr} (hp : s.phase = .decoding) (hf : fetch s = some i) :
    step s = exec i s := by
  simp only [step, hp, hf]

theorem step_endOfStream {s : State} (hp : s.phase = .decoding) (hf : fetch s = none) : step s = endOfStream s := by
  simp only [step, hp, hf]

/-- Settles O28, by what each of the steps of R20 can do. -/
theorem capacitiesNeverChange : Obligations.CapacitiesNeverChange := by
  intro s t h
  cases hp : s.phase with
  | idle =>
    cases hq : s.pending with
    | nil =>
      rw [step_waiting hp hq] at h
      rw [Host.Outcome.next.inj h]
    | cons c rest =>
      rw [step_issued hp hq] at h
      exact (startCommand_caps h :)
  | encoding =>
    rw [step_encoding hp] at h
    exact runEncoder_caps h
  | decoding =>
    cases hf : fetch s with
    | some i =>
      rw [step_fetched hp hf] at h
      exact exec_caps h
    | none =>
      rw [step_endOfStream hp hf] at h
      exact endOfStream_caps h

end Sys2Proof.Machine
end

section
/-! PROOF. What each opcode does, as equations per outcome, and from them what a step of the decoder can do
(42_lz77_decoder.md R141 to R147); O21, O23 and O24. -/

namespace Sys2Proof.Machine

/-! ### Which errors an operation can raise -/

/-- Every error an operation raises is of a kind in P. -/
def RaisesOnly {α : Type} (P : ErrorKind → Prop) (x : Except Halt α) : Prop :=
  ∀ e p, x = .error (.raise e p) → P e

theorem raisesOnly_ok {α : Type} (P : ErrorKind → Prop) (a : α) : RaisesOnly P (.ok a) := fun _ _ h => nomatch h

theorem raisesOnly_raise {α : Type} {P : ErrorKind → Prop} {e : ErrorKind} (he : P e) (p : Nat) :
    RaisesOnly (α := α) P (.error (.raise e p)) := fun e' p' h => by cases h; exact he

theorem RaisesOnly.bind {α β : Type} {P : ErrorKind → Prop} {x : Except Halt α} {f : α → Except Halt β}
    (hx : RaisesOnly P x) (hf : ∀ a, RaisesOnly P (f a)) : RaisesOnly P (x >>= f) := by
  cases x with
  | error h => exact fun e p he => hx e p (by cases he; rfl)
  | ok a => exact hf a

theorem raisesOnly_memRead (P : ErrorKind → Prop) (sp : Space) (a : Nat) (s : State) :
    RaisesOnly P (memRead sp a s) := by
  unfold memRead
  split
  · exact raisesOnly_ok P _
  · exact fun e p h => nomatch h

theorem raisesOnly_copyInto (P : ErrorKind → Prop) (src : Space) (d : Dest) (n base : Nat) (s : State) :
    RaisesOnly P (copyInto src d n base s) := by
  induction n generalizing base s with
  | zero => exact raisesOnly_ok P s
  | succ n ih =>
    rw [copyInto]
    split
    · exact ih _ _
    · next h hr => exact fun e p he => raisesOnly_memRead P src base s e p (by rw [hr]; cases he; rfl)

/-! ### Each opcode, by its outcome -/

section
variable {s : State}

theorem exec_lit_ok {k : Nat} (ds : List Byte) (hd : s.ip + 1 + k ≤ s.slen) (hr : s.HasRoom k) :
    exec (.lit k ds) s = .next ((s.extend .out ds).advance (1 + k)) := by
  simp only [exec, execLit, needData_ok k s hd, room_ok k s hr, appendAll_eq]
  rfl

theorem exec_lit_truncated {k : Nat} (ds : List Byte) (hd : s.slen < s.ip + 1 + k) :
    exec (.lit k ds) s = .next (s.raise .truncatedOpcode s.ip s.stopSeen) := by
  simp only [exec, execLit, needData_error k s hd]
  rfl

theorem exec_lit_overflow {k : Nat} (ds : List Byte) (hd : s.ip + 1 + k ≤ s.slen) (hr : ¬ s.HasRoom k) :
    exec (.lit k ds) s = .next (s.raise .outputOverflow s.ip s.stopSeen) := by
  simp only [exec, execLit, needData_ok k s hd, room_error k s hr]
  rfl

theorem exec_zrun_ok {c : Nat} (hr : s.HasRoom c) :
    exec (.zrun c) s = .next ((s.extend .out (List.replicate c 0)).advance 1) := by
  simp only [exec, execZrun, room_ok c s hr, appendAll_eq]
  rfl

theorem exec_zrun_overflow {c : Nat} (hr : ¬ s.HasRoom c) :
    exec (.zrun c) s = .next (s.raise .outputOverflow s.ip s.stopSeen) := by
  simp only [exec, execZrun, room_error c s hr]
  rfl

theorem exec_stop (s : State) : exec .stop s = .next (s.noteStop.advance 1) := rfl

theorem exec_brext (f v : Nat) (s : State) :
    exec (.brext f v) s = .next ((s.extendChain (extLength f) (extDistance v)).advance 1) := rfl

theorem exec_bref_distance {m q : Nat} (hd : s.cur < refDistance m q s) :
    exec (.bref m q) s = .next (s.raise .distanceOutOfRange s.ip s.stopSeen) := by
  simp only [exec, execBref, needDistance_error _ s hd]
  rfl

theorem exec_bref_overflow {m q : Nat} (hd : refDistance m q s ≤ s.cur) (hr : ¬ s.HasRoom (refLength m s)) :
    exec (.bref m q) s = .next (s.raise .outputOverflow s.ip s.stopSeen) := by
  simp only [exec, execBref, needDistance_ok _ s hd, room_error _ s hr]
  rfl

/-- A Backref in range and with room is its copy, and then its chain is closed. -/
theorem exec_bref_copy {m q : Nat} (hd : refDistance m q s ≤ s.cur) (hr : s.HasRoom (refLength m s)) :
    exec (.bref m q) s = settle s.stopSeen s (do
      let t ← copyInto .out .out (refLength m s) (s.cur - refDistance m q s) s
      pure (t.closeChain.advance 1)) := by
  simp only [exec, execBref, needDistance_ok _ s hd, room_ok _ s hr]
  rfl

/-- A Backref's source range ends at or before CUR (42_lz77_decoder.md R149). -/
theorem refLength_le_refDistance (m q : Nat) (s : State) : refLength m s ≤ refDistance m q s := by
  simp only [refDistance]
  omega

/-- Where CUR is len(OUT), a Backref in range and with room completes with the bytes of its source range. -/
theorem exec_bref_ok {m q : Nat} (hc : s.cur = s.out.length) (hd : refDistance m q s ≤ s.cur)
    (hr : s.HasRoom (refLength m s)) :
    exec (.bref m q) s = .next ((s.extend .out
      ((s.out.drop (s.cur - refDistance m q s)).take (refLength m s))).closeChain.advance 1) := by
  have hle := refLength_le_refDistance m q s
  rw [exec_bref_copy hd hr, copyInto_out _ _ s (by omega)]
  rfl

end

/-! ### What an opcode can do -/

/-- What an opcode that completes has checked, and the state it leaves (R142 to R146). No reserved byte completes. -/
inductive OpcodeCompletes (s : State) : Instr → State → Prop where
  | lit (k : Nat) (ds : List Byte) (data : s.ip + 1 + k ≤ s.slen) (hasRoom : s.HasRoom k) :
    OpcodeCompletes s (.lit k ds) ((s.extend .out ds).advance (1 + k))
  | zrun (c : Nat) (hasRoom : s.HasRoom c) :
    OpcodeCompletes s (.zrun c) ((s.extend .out (List.replicate c 0)).advance 1)
  | stop : OpcodeCompletes s .stop (s.noteStop.advance 1)
  | brext (f v : Nat) :
    OpcodeCompletes s (.brext f v) ((s.extendChain (extLength f) (extDistance v)).advance 1)
  | bref (m q : Nat) (bs : List Byte) (hasRoom : s.HasRoom (refLength m s)) (length : bs.length = refLength m s) :
    OpcodeCompletes s (.bref m q) ((s.extend .out bs).closeChain.advance 1)

/-- The fault an opcode can enter: at its own IP, of any kind but HeaderTooShort, which only a command's start raises
(60_exceptions.md R170, R176). -/
def OpcodeFaults (s t : State) : Prop := ∃ e, e ≠ .headerTooShort ∧ t = s.raise e s.ip s.stopSeen

theorem opcodeFaults_of_next {s t : State} {o : Host.Outcome State Fault Refusal} (h : o = .next t) {e : ErrorKind}
    (ho : o = .next (s.raise e s.ip s.stopSeen)) (he : e ≠ .headerTooShort) : OpcodeFaults s t :=
  ⟨e, he, Host.Outcome.next.inj (h.symm.trans ho)⟩

theorem exec_lit_outcome {k : Nat} {ds : List Byte} {s t : State} (h : exec (.lit k ds) s = .next t) :
    OpcodeCompletes s (.lit k ds) t ∨ OpcodeFaults s t := by
  by_cases hd : s.ip + 1 + k ≤ s.slen
  · by_cases hr : s.HasRoom k
    · rw [exec_lit_ok ds hd hr] at h
      cases h
      exact .inl (.lit k ds hd hr)
    · exact .inr (opcodeFaults_of_next h (exec_lit_overflow ds hd hr) (by decide))
  · exact .inr (opcodeFaults_of_next h (exec_lit_truncated ds (Nat.lt_of_not_le hd)) (by decide))

theorem exec_zrun_outcome {c : Nat} {s t : State} (h : exec (.zrun c) s = .next t) :
    OpcodeCompletes s (.zrun c) t ∨ OpcodeFaults s t := by
  by_cases hr : s.HasRoom c
  · rw [exec_zrun_ok hr] at h
    cases h
    exact .inl (.zrun c hr)
  · exact .inr (opcodeFaults_of_next h (exec_zrun_overflow hr) (by decide))

theorem exec_bref_outcome {m q : Nat} {s t : State} (h : exec (.bref m q) s = .next t) :
    OpcodeCompletes s (.bref m q) t ∨ OpcodeFaults s t := by
  by_cases hd : refDistance m q s ≤ s.cur
  · by_cases hr : s.HasRoom (refLength m s)
    · rw [exec_bref_copy hd hr] at h
      rcases settle_next h with hok | ⟨e, p, herr, -⟩
      · obtain ⟨u, hu, hok⟩ := bind_eq_ok hok
        obtain ⟨bs, hlen, rfl⟩ := copyInto_eq_ok hu
        cases hok
        exact .inl (.bref m q bs hr hlen)
      · exact ((raisesOnly_copyInto (fun _ => False) _ _ _ _ s).bind (fun _ => raisesOnly_ok _ _) e p herr).elim
    · exact .inr (opcodeFaults_of_next h (exec_bref_overflow hd hr) (by decide))
  · exact .inr (opcodeFaults_of_next h (exec_bref_distance (Nat.lt_of_not_le hd)) (by decide))

theorem raiseReserved_outcome {s t : State} (h : raiseReserved s = .next t) : OpcodeFaults s t :=
  ⟨_, by decide, raiseReserved_next h⟩

/-- What an opcode can do: complete, or enter a fault at its own IP. -/
theorem exec_outcome {i : Instr} {s t : State} (h : exec i s = .next t) :
    OpcodeCompletes s i t ∨ OpcodeFaults s t := by
  cases i with
  | lit k ds => exact exec_lit_outcome h
  | zrun c => exact exec_zrun_outcome h
  | bref m q => exact exec_bref_outcome h
  | stop => cases h; exact .inl .stop
  | brext f v => cases h; exact .inl (.brext f v)
  | reserved91 => exact .inr (raiseReserved_outcome h)
  | reserved92 x => exact .inr (raiseReserved_outcome h)
  | reserved94 x => exact .inr (raiseReserved_outcome h)
  | reserved98 x => exact .inr (raiseReserved_outcome h)

/-- Where CUR is len(OUT), every opcode has a next state: no access misses its space (20_memory.md R60). -/
theorem exec_total (i : Instr) (s : State) (hc : s.cur = s.out.length) : ∃ t, exec i s = .next t := by
  cases i with
  | lit k ds =>
    by_cases hd : s.ip + 1 + k ≤ s.slen
    · by_cases hr : s.HasRoom k
      · exact ⟨_, exec_lit_ok ds hd hr⟩
      · exact ⟨_, exec_lit_overflow ds hd hr⟩
    · exact ⟨_, exec_lit_truncated ds (Nat.lt_of_not_le hd)⟩
  | zrun c =>
    by_cases hr : s.HasRoom c
    · exact ⟨_, exec_zrun_ok hr⟩
    · exact ⟨_, exec_zrun_overflow hr⟩
  | bref m q =>
    by_cases hd : refDistance m q s ≤ s.cur
    · by_cases hr : s.HasRoom (refLength m s)
      · exact ⟨_, exec_bref_ok hc hd hr⟩
      · exact ⟨_, exec_bref_overflow hd hr⟩
    · exact ⟨_, exec_bref_distance (Nat.lt_of_not_le hd)⟩
  | stop => exact ⟨_, exec_stop s⟩
  | brext f v => exact ⟨_, exec_brext f v s⟩
  | reserved91 => exact ⟨_, rfl⟩
  | reserved92 x => exact ⟨_, rfl⟩
  | reserved94 x => exact ⟨_, rfl⟩
  | reserved98 x => exact ⟨_, rfl⟩

/-! ### What an opcode that completes has changed -/

theorem OpcodeCompletes.changedByDecoder {s t : State} {i : Instr} (h : OpcodeCompletes s i t) :
    ChangedByDecoder s t := by
  cases h <;> rfl

/-- IP moves past the opcode, and CUR past the bytes it writes (10_state.md R29, R30). -/
theorem OpcodeCompletes.advances {s t : State} {i : Instr} (h : OpcodeCompletes s i t) (hw : i.wellFormed = true) :
    t.ip = s.ip + (encode i).length ∧ t.cur = s.cur + writtenBytes i s := by
  cases h with
  | lit k ds =>
    obtain ⟨-, hlen⟩ : k ≤ 127 ∧ ds.length = k := by simpa [Instr.wellFormed] using hw
    exact ⟨by simp [encode, hlen, Nat.add_comm], by simp [writtenBytes, hlen]⟩
  | zrun c => exact ⟨rfl, by simp [writtenBytes]⟩
  | stop => exact ⟨rfl, rfl⟩
  | brext f v => exact ⟨rfl, rfl⟩
  | bref m q bs _ hlen => exact ⟨rfl, by simp [writtenBytes, hlen, refLength]⟩

/-- The fields the host reads stay as they are while the decoder works. -/
theorem ChangedByDecoder.reports {s t : State} (h : ChangedByDecoder s t) :
    t.phase = s.phase ∧ t.result = s.result ∧ t.status = s.status ∧ t.faultPos = s.faultPos := by
  rw [h]
  exact ⟨rfl, rfl, rfl, rfl⟩

/-- The code of an error kind that is not HeaderTooShort is 1 to 4 (60_exceptions.md R170). -/
theorem ErrorKind.code_of_ne_headerTooShort {e : ErrorKind} (he : e ≠ .headerTooShort) :
    1 ≤ e.code.toNat ∧ e.code.toNat ≤ 4 := by
  cases e with
  | headerTooShort => exact absurd rfl he
  | distanceOutOfRange => decide
  | truncatedOpcode => decide
  | outputOverflow => decide
  | reservedOpcode => decide

/-- Settles O21, by what an opcode can do: complete, or enter a fault at its own IP. -/
theorem everyOpcodeAdvancesOrFaults : Obligations.EveryOpcodeAdvancesOrFaults := by
  intro i s hw hc
  obtain ⟨t, ht⟩ := exec_total i s hc
  refine ⟨t, ht, ?_⟩
  rcases exec_outcome ht with hok | ⟨e, he, rfl⟩
  · obtain ⟨hip, hcur⟩ := hok.advances hw
    exact .inl ⟨hip, hcur, hok.changedByDecoder.reports⟩
  · obtain ⟨h1, h4⟩ := ErrorKind.code_of_ne_headerTooShort he
    exact .inr ⟨_, h1, h4, raise_faultEntry e s.ip s.stopSeen s⟩

/-- A fault of an opcode leaves the chain and STOP_SEEN alone: nothing further is written (60_exceptions.md R178). -/
theorem OpcodeFaults.registers {s t : State} (h : OpcodeFaults s t) :
    t.na = s.na ∧ t.sa = s.sa ∧ t.chainOpen = s.chainOpen ∧ t.stopSeen = s.stopSeen := by
  obtain ⟨e, -, rfl⟩ := h
  exact ⟨rfl, rfl, rfl, rfl⟩

/-- Settles O23: only BackrefExtend and Backref write the chain's registers. -/
theorem chainSurvivesOtherOpcodes : Obligations.ChainSurvivesOtherOpcodes := by
  intro s t i k c ds hi h
  rcases exec_outcome h with hok | hfault
  · rcases hi with rfl | rfl | rfl <;> cases hok <;> exact ⟨rfl, rfl, rfl⟩
  · obtain ⟨hna, hsa, hopen, -⟩ := hfault.registers
    exact ⟨hna, hsa, hopen⟩

/-- Settles O24: of the opcodes that complete only Stop writes STOP_SEEN, and a fault keeps it. -/
theorem onlyStopSetsStopSeen : Obligations.OnlyStopSetsStopSeen := by
  intro i s t h
  by_cases hi : i = .stop
  · subst hi
    cases h
    simp
  · have hsame : t.stopSeen = s.stopSeen := by
      rcases exec_outcome h with hok | hfault
      · cases hok with
        | stop => exact absurd rfl hi
        | lit | zrun | brext | bref => rfl
      · obtain ⟨-, -, -, hstop⟩ := hfault.registers
        exact hstop
    simp [hsame, hi]

end Sys2Proof.Machine
end

section
/-! PROOF. The start of a command: its buffers, the context of its header and the state it enters (10_state.md R40,
20_memory.md R63, 40_dictionary_builder.md R101 to R103); O35 and O36. -/

namespace Sys2Proof.Machine

/-! ### Overlapping buffers -/

/-- Two ranges of the host's storage share a byte exactly when some address lies in both. -/
theorem HostStorage.overlaps_iff (r q : HostStorage) :
    r.overlaps q = true ↔ ∃ a, r.base ≤ a ∧ a < r.base + r.size ∧ q.base ≤ a ∧ a < q.base + q.size := by
  simp only [HostStorage.overlaps, decide_eq_true_eq]
  constructor
  · intro h
    exact ⟨max r.base q.base, by omega, by omega, by omega, by omega⟩
  · rintro ⟨a, h⟩
    omega

/-- No two ranges overlap exactly when no address lies in two of them. -/
theorem anyOverlap_eq_false_iff (rs : List HostStorage) : anyOverlap rs = false ↔ rs.Pairwise fun r q =>
    ∀ a, ¬ (r.base ≤ a ∧ a < r.base + r.size ∧ q.base ≤ a ∧ a < q.base + q.size) := by
  induction rs with
  | nil => simp [anyOverlap]
  | cons r rs ih =>
    simp only [anyOverlap, Bool.or_eq_false_iff, List.any_eq_false, HostStorage.overlaps_iff, not_exists, ih,
      List.pairwise_cons]

theorem Command.disjoint_iff (c : Command) : c.Disjoint ↔ anyOverlap c.buffers = false :=
  (anyOverlap_eq_false_iff c.buffers).symm

/-! ### The dictionary_builder -/

/-- The copy of an address field of a header that is long enough (R101). -/
theorem copyInto_hdr_ctx (base : Nat) (s : State) (h : base + 16 ≤ s.hdr.length) :
    copyInto .hdr .ctx addrLen base s = .ok (s.extend .ctx ((s.hdr.drop base).take 16)) :=
  copyInto_other .hdr .ctx (by decide) (by decide) 16 base s h

/-- The builder's result under a header of at least 40 bytes (R101). -/
theorem buildContext_ok (s : State) (h : 40 ≤ s.hdr.length) :
    buildContext s = .ok (s.extend .ctx (contextOf s.hdr)) := by
  have hdst (bs : List Byte) : copyInto .hdr .ctx addrLen dstOff (s.extend .ctx bs) =
      .ok ((s.extend .ctx bs).extend .ctx ((s.hdr.drop 24).take 16)) := copyInto_hdr_ctx 24 _ (by simp; omega)
  rw [buildContext, if_neg (Nat.not_lt.2 h), copyInto_hdr_ctx srcOff s (show 8 + 16 ≤ _ by omega)]
  simp only [bind, Except.bind, hdst, appendAll_eq, extend_extend]
  rfl

theorem buildContext_error (s : State) (h : s.hdr.length < 40) :
    buildContext s = .error (.raise .headerTooShort s.hdr.length) := by
  rw [buildContext, if_pos h]

/-- CTX_LEN: the context of a header of at least 40 bytes has 48 (00_scope.md R6). -/
theorem contextOf_length {hdr : List Byte} (h : 40 ≤ hdr.length) : (contextOf hdr).length = 48 := by
  simp [contextOf, staticDict]
  omega

/-! ### The start of a command -/

/-- The state in which a command's builder has completed. -/
def State.built (c : Command) (s : State) : State := (s.initial c).setDest .ctx (contextOf c.header)

theorem startCommand_overlapping {c : Command} (s : State) (hd : ¬ c.Disjoint) :
    startCommand c s = .refused .overlappingBuffers := by
  have ho : anyOverlap c.buffers = true := by simpa [Command.disjoint_iff] using hd
  rw [startCommand, if_pos ho]

theorem startCommand_ok {c : Command} (s : State) (hd : c.Disjoint) (hh : 40 ≤ c.header.length) :
    startCommand c s = .next ((s.built c).begin c) := by
  have ho : ¬ anyOverlap c.buffers = true := by simp [(Command.disjoint_iff c).1 hd]
  rw [startCommand, if_neg ho, buildContext_ok _ hh]
  rfl

theorem startCommand_short {c : Command} (s : State) (hd : c.Disjoint) (hh : c.header.length < 40) :
    startCommand c s = .next ((s.initial c).raise .headerTooShort c.header.length false) := by
  have ho : ¬ anyOverlap c.buffers = true := by simp [(Command.disjoint_iff c).1 hd]
  rw [startCommand, if_neg ho, buildContext_error _ hh]
  rfl

/-- What the start of a command can do: build its context and begin, or enter the fault of a short header. -/
theorem startCommand_outcome {c : Command} {s t : State} (h : startCommand c s = .next t) :
    (40 ≤ c.header.length ∧ t = (s.built c).begin c) ∨
      t = (s.initial c).raise .headerTooShort c.header.length false := by
  by_cases hd : c.Disjoint
  · by_cases hh : 40 ≤ c.header.length
    · rw [startCommand_ok s hd hh] at h
      exact .inl ⟨hh, (Host.Outcome.next.inj h).symm⟩
    · rw [startCommand_short s hd (Nat.lt_of_not_le hh)] at h
      exact .inr (Host.Outcome.next.inj h).symm
  · rw [startCommand_overlapping s hd] at h
    cases h

/-- Settles O35: the builder has completed, and the loop is entered with WIN = CTX ‖ PAY_IN (R110, R111). -/
theorem compressStarts : Obligations.CompressStarts := by
  rintro s h p d rest ⟨hp, hq⟩ hd hh
  rw [step_issued hp hq, startCommand_ok _ hd hh]
  rfl

/-- Settles O36: the builder has completed, and the loop is entered with OUT = CTX (R140). -/
theorem decompressStarts : Obligations.DecompressStarts := by
  rintro s h i d rest ⟨hp, hq⟩ hd hh
  refine ⟨contextOf_length hh, ?_⟩
  rw [step_issued hp hq, startCommand_ok _ hd hh]
  rfl

end Sys2Proof.Machine
end

section
/-! PROOF. STATUS, and what the steps that end a command report (10_state.md R35, R36, 60_exceptions.md R178); O26 and
O27. -/

namespace Sys2Proof.Machine

/-! ### The fields of STATUS (10_state.md R35) -/

theorem statusWord_fields (c : BitVec 3) (u : Bool) :
    (statusWord c u).extractLsb' 0 3 = c ∧ (statusWord c u).getLsbD 3 = u ∧
      (statusWord c u).extractLsb' 4 4 = 0 := by
  revert c u
  decide

theorem State.err_of_status {s : State} {c : BitVec 3} {u : Bool} (h : s.status = statusWord c u) :
    s.err = c.toNat := by
  rw [State.err, h, (statusWord_fields c u).1]

theorem State.unsup_of_status {s : State} {c : BitVec 3} {u : Bool} (h : s.status = statusWord c u) :
    s.unsup = u := by
  rw [State.unsup, h, (statusWord_fields c u).2.1]

theorem State.statusReserved_of_status {s : State} {c : BitVec 3} {u : Bool} (h : s.status = statusWord c u) :
    s.statusReserved = 0 := by
  rw [State.statusReserved, h, (statusWord_fields c u).2.2]
  rfl

section
variable (s : State) (e : ErrorKind) (p : Nat) (r : Result) (u : Bool)

@[simp] theorem raise_err : (s.raise e p u).err = e.code.toNat := State.err_of_status rfl
@[simp] theorem raise_unsup : (s.raise e p u).unsup = u := State.unsup_of_status rfl
@[simp] theorem raise_statusReserved : (s.raise e p u).statusReserved = 0 := State.statusReserved_of_status rfl
@[simp] theorem finish_err : (s.finish r u).err = 0 := State.err_of_status (c := 0) rfl
@[simp] theorem finish_unsup : (s.finish r u).unsup = u := State.unsup_of_status rfl
@[simp] theorem finish_statusReserved : (s.finish r u).statusReserved = 0 := State.statusReserved_of_status rfl

end

/-- Settles O26: a fault writes STATUS whole, from its code and UNSUP. -/
theorem statusFields : Obligations.StatusFields :=
  ⟨fun s e p u => ⟨raise_err s e p u, raise_unsup s e p u, raise_statusReserved s e p u, raise_faultPos s e p u⟩,
    rfl, rfl, rfl, rfl, rfl⟩

/-! ### The errors of the lz77_encoder: OutputOverflow only (60_exceptions.md R173) -/

/-- An operation of the encoder raises OutputOverflow only. -/
def OnlyOverflows {α : Type} (x : Except Halt α) : Prop := RaisesOnly (· = .outputOverflow) x

theorem onlyOverflows_ok {α : Type} (a : α) : OnlyOverflows (.ok a) := raisesOnly_ok _ a

theorem onlyOverflows_emit (b : Byte) (s : State) : OnlyOverflows (emit b s) := by
  unfold emit
  split
  · exact onlyOverflows_ok _
  · exact raisesOnly_raise (P := (· = .outputOverflow)) rfl _

theorem emitAll_cons (b : Byte) (bs : List Byte) (s : State) : emitAll (b :: bs) s = emit b s >>= emitAll bs := by
  rw [emitAll]
  cases emit b s <;> rfl

theorem onlyOverflows_emitAll (bs : List Byte) (s : State) : OnlyOverflows (emitAll bs s) := by
  induction bs generalizing s with
  | nil => exact onlyOverflows_ok s
  | cons b bs ih =>
    rw [emitAll_cons]
    exact (onlyOverflows_emit b s).bind ih

theorem bumpCount_eq (s : State) : bumpCount s =
    memRead .strOut s.litHdr s >>= fun count => memWrite .strOut s.litHdr (count + 1) s := by
  rw [bumpCount]
  cases memRead .strOut s.litHdr s <;> rfl

theorem raisesOnly_memWrite (P : ErrorKind → Prop) (d : Dest) (a : Nat) (b : Byte) (s : State) :
    RaisesOnly P (memWrite d a b s) := by
  unfold memWrite
  split
  · exact raisesOnly_ok P _
  · split
    · exact raisesOnly_ok P _
    · exact fun e p h => nomatch h

theorem onlyOverflows_bumpCount (s : State) : OnlyOverflows (bumpCount s) := by
  rw [bumpCount_eq]
  exact (raisesOnly_memRead _ _ _ _).bind fun count => raisesOnly_memWrite _ _ _ _ _

theorem extendsRun_eq (s : State) : extendsRun s =
    if s.litActive then memRead .strOut s.litHdr s >>= fun count => pure (count != BitVec.ofNat 8 litMax)
    else pure false := by
  rw [extendsRun]
  cases memRead .strOut s.litHdr s <;> rfl

theorem openRun_eq (s : State) : openRun s =
    extendsRun s >>= fun goesOn => if goesOn then pure s else startLiteralRun s := by
  rw [openRun]
  match extendsRun s with
  | .ok true => rfl
  | .ok false => rfl
  | .error _ => rfl

theorem onlyOverflows_extendsRun (s : State) : OnlyOverflows (extendsRun s) := by
  rw [extendsRun_eq]
  split
  · exact (raisesOnly_memRead _ _ _ _).bind fun count => onlyOverflows_ok _
  · exact onlyOverflows_ok _

theorem onlyOverflows_openRun (s : State) : OnlyOverflows (openRun s) := by
  rw [openRun_eq]
  refine (onlyOverflows_extendsRun s).bind fun goesOn => ?_
  cases goesOn with
  | true => exact onlyOverflows_ok s
  | false => exact onlyOverflows_emit 0 s.openLiteralRun

theorem onlyOverflows_emitLiteral (x : Byte) (s : State) : OnlyOverflows (emitLiteral x s) :=
  (onlyOverflows_openRun s).bind fun t => (onlyOverflows_emit x t).bind onlyOverflows_bumpCount

theorem onlyOverflows_emitChoice (c : Choice) (s : State) : OnlyOverflows (emitChoice c s) := by
  cases c with
  | backref => exact ((onlyOverflows_emitAll _ s).bind fun t => onlyOverflows_ok _).bind fun t => onlyOverflows_ok _
  | zeroRun => exact ((onlyOverflows_emit _ s).bind fun t => onlyOverflows_ok _).bind fun t => onlyOverflows_ok _
  | literal =>
    exact (raisesOnly_memRead _ _ _ s).bind fun x => (onlyOverflows_emitLiteral x s).bind fun t => onlyOverflows_ok _

theorem onlyOverflows_encodeStep (s : State) : OnlyOverflows (encodeStep s) := onlyOverflows_emitChoice _ _

/-! ### What the steps that can end a command do -/

/-- What a step of a running COMPRESS can do: a pass, an OutputOverflow, or the command's completion. -/
theorem runEncoder_outcome {s t : State} (h : runEncoder s = .next t) :
    encodeStep s = .ok t ∨ (∃ p, t = s.raise .outputOverflow p false) ∨
      t = s.finish (.stream s.strOut) false := by
  unfold runEncoder at h
  split at h
  · rcases settle_next h with hok | ⟨e, p, herr, ht⟩
    · exact .inl hok
    · obtain rfl := onlyOverflows_encodeStep s e p herr
      exact .inr (.inl ⟨p, ht⟩)
  · exact .inr (.inr (Host.Outcome.next.inj h).symm)

theorem endOfStream_open {s : State} (h : s.chainOpen = true) :
    endOfStream s = .next (s.raise .truncatedOpcode s.slen s.stopSeen) := by
  rw [endOfStream, if_pos h, settle_raise]

theorem endOfStream_closed {s : State} (h : s.chainOpen = false) :
    endOfStream s = .next (s.finish (.payload s.payOut) s.stopSeen) := by
  rw [endOfStream, if_neg (by simp [h]), settle_ok]

/-- What the end of a stream can do: complete the command, or enter the fault of an open chain (R148). -/
theorem endOfStream_outcome {s t : State} (h : endOfStream s = .next t) :
    t = s.finish (.payload s.payOut) s.stopSeen ∨ t = s.raise .truncatedOpcode s.slen s.stopSeen := by
  cases ho : s.chainOpen with
  | true => exact .inr (Host.Outcome.next.inj (h.symm.trans (endOfStream_open ho)))
  | false => exact .inl (Host.Outcome.next.inj (h.symm.trans (endOfStream_closed ho)))

/-! ### Reports -/

/-- What a step of a running command leaves for the host to read, as O27 states it. -/
def ReportsAtTheEnd (s t : State) : Prop :=
  (t.phase = s.phase ∧ t.status = s.status ∧ t.faultPos = s.faultPos ∧ t.result = s.result) ∨
  (t.phase = .idle ∧ t.err = 0 ∧ t.faultPos = s.faultPos ∧ t.result ≠ .none) ∨
  (t.phase = .idle ∧ 1 ≤ t.err ∧ t.err ≤ 4 ∧ t.result = .none)

theorem ChangedByEncoder.reports {s t : State} (h : ChangedByEncoder s t) :
    t.phase = s.phase ∧ t.result = s.result ∧ t.status = s.status ∧ t.faultPos = s.faultPos := by
  rw [h]
  exact ⟨rfl, rfl, rfl, rfl⟩

theorem reportsAtTheEnd_of_unchanged {s t : State}
    (h : t.phase = s.phase ∧ t.result = s.result ∧ t.status = s.status ∧ t.faultPos = s.faultPos) :
    ReportsAtTheEnd s t :=
  have ⟨hphase, hresult, hstatus, hpos⟩ := h
  .inl ⟨hphase, hstatus, hpos, hresult⟩

theorem reportsAtTheEnd_finish (s : State) {r : Result} (hr : r ≠ .none) (u : Bool) :
    ReportsAtTheEnd s (s.finish r u) := .inr (.inl ⟨rfl, finish_err s r u, rfl, hr⟩)

theorem reportsAtTheEnd_raise (s : State) {e : ErrorKind} (he : e ≠ .headerTooShort) (p : Nat) (u : Bool) :
    ReportsAtTheEnd s (s.raise e p u) := by
  obtain ⟨h1, h4⟩ := ErrorKind.code_of_ne_headerTooShort he
  exact .inr (.inr ⟨rfl, by simpa using h1, by simpa using h4, rfl⟩)

/-- Settles O27, by what the steps of a running command can do. -/
theorem reportsOnlyAtTheEnd : Obligations.ReportsOnlyAtTheEnd := by
  intro s t hrun h
  change ReportsAtTheEnd s t
  cases hp : s.phase with
  | idle => exact absurd hp hrun
  | encoding =>
    rw [step_encoding hp] at h
    rcases runEncoder_outcome h with hok | ⟨p, rfl⟩ | rfl
    · exact reportsAtTheEnd_of_unchanged (changedByEncoder_of_encodeStep hok).reports
    · exact reportsAtTheEnd_raise s (by decide) p false
    · exact reportsAtTheEnd_finish s (by simp) false
  | decoding =>
    cases hf : fetch s with
    | some i =>
      rw [step_fetched hp hf] at h
      rcases exec_outcome h with hok | ⟨e, he, rfl⟩
      · exact reportsAtTheEnd_of_unchanged hok.changedByDecoder.reports
      · exact reportsAtTheEnd_raise s he s.ip s.stopSeen
    | none =>
      rw [step_endOfStream hp hf] at h
      rcases endOfStream_outcome h with rfl | rfl
      · exact reportsAtTheEnd_finish s (by simp) s.stopSeen
      · exact reportsAtTheEnd_raise s (by decide) s.slen s.stopSeen

end Sys2Proof.Machine
end

section
/-! PROOF. The invariant of a safe run holds at reset and is kept by every step (10_state.md R24 to R36); O53, O54 and
O56. -/

namespace Sys2Proof.Machine

/-! ### The invariant, by phase -/

theorem State.IdleInv.inv {s : State} (hp : s.phase = .idle) (h : s.IdleInv) : s.Inv where
  idle _ := h
  encoding he := nomatch hp.symm.trans he
  decoding hd := nomatch hp.symm.trans hd

theorem State.EncodingInv.inv {s : State} (hp : s.phase = .encoding) (h : s.EncodingInv) : s.Inv where
  idle hi := nomatch hp.symm.trans hi
  encoding _ := h
  decoding hd := nomatch hp.symm.trans hd

theorem State.DecodingInv.inv {s : State} (hp : s.phase = .decoding) (h : s.DecodingInv) : s.Inv where
  idle hi := nomatch hp.symm.trans hi
  encoding he := nomatch hp.symm.trans he
  decoding _ := h

/-! ### The end of a command -/

/-- Every fault leaves an idle core that meets the invariant. -/
theorem inv_raise (s : State) (e : ErrorKind) (p : Nat) (u : Bool) : (s.raise e p u).Inv := by
  have hcode : 1 ≤ e.code.toNat ∧ e.code.toNat ≤ 5 := by cases e <;> decide
  exact State.IdleInv.inv rfl
    { reserved := raise_statusReserved s e p u
      code := by simpa using hcode.2
      noResult := fun _ => rfl
      noFaultPos := fun h => by simp at h; omega
      context := fun bs h => nomatch h
      stream := fun bs h => nomatch h }

/-- A completion leaves an idle core that meets the invariant; UNSUP may be 1 with a payload only. -/
theorem inv_finish {s : State} (hpos : s.faultPos = 0) (r : Result) {u : Bool}
    (hu : u = true → ∃ bs, r = .payload bs) : (s.finish r u).Inv := by
  have hclear (hr : ∀ bs, r ≠ .payload bs) : (s.finish r u).unsup = false := by
    rw [finish_unsup, Bool.eq_false_iff]
    exact fun h => (hu h).elim hr
  exact State.IdleInv.inv rfl
    { reserved := finish_statusReserved s r u
      code := by simp
      noResult := fun h => absurd (finish_err s r u) h
      noFaultPos := fun _ => hpos
      context := fun bs h => hclear fun bs' h' => nomatch h.symm.trans h'
      stream := fun bs h => hclear fun bs' h' => nomatch h.symm.trans h' }

/-- Settles O53: reset leaves an idle core whose STATUS is 0 and which has no result. -/
theorem invAtReset : Obligations.InvAtReset :=
  State.IdleInv.inv rfl
    { reserved := by decide
      code := by decide
      noResult := fun _ => rfl
      noFaultPos := fun _ => rfl
      context := fun bs h => nomatch h
      stream := fun bs h => nomatch h }

/-! ### The start of a command -/

theorem fits_zero (cap : Option Nat) : Fits cap 0 := fun c _ => Nat.zero_le c

/-- What the builder leaves is the running command's invariant. -/
theorem built_runningInv {c : Command} (s : State) (h : 40 ≤ c.header.length) : (s.built c).RunningInv :=
  { header := h, context := rfl, status := rfl, faultPos := rfl, result := rfl }

theorem begin_compress_encodingInv {h p : HostBuffer} {d : HostStorage} (s : State) (hh : 40 ≤ h.bytes.length) :
    ((s.built (.compress h p d)).begin (.compress h p d)).EncodingInv :=
  { built_runningInv (c := .compress h p d) s hh with
    index := Nat.zero_le _
    window := rfl
    literalRun := fun hl => nomatch hl
    capacity := fits_zero _ }

theorem begin_decompress_decodingInv {h i : HostBuffer} {d : HostStorage} (s : State) (hh : 40 ≤ h.bytes.length) :
    ((s.built (.decompress h i d)).begin (.decompress h i d)).DecodingInv :=
  { built_runningInv (c := .decompress h i d) s hh with
    pointer := Nat.zero_le _
    cursor := (contextOf_length hh).symm
    prefix48 := List.take_of_length_le (contextOf_length hh).le
    length8 := Nat.dvd_zero 8
    distance8 := Nat.dvd_zero 8
    chain := fun _ => ⟨rfl, rfl⟩
    capacity := fits_zero _ }

theorem startCommand_inv {c : Command} {s t : State} (h : startCommand c s = .next t) : t.Inv := by
  rcases startCommand_outcome h with ⟨hh, rfl⟩ | rfl
  · cases c with
    | build hdr d => exact inv_finish rfl _ (fun hu => nomatch hu)
    | compress hdr p d => exact (begin_compress_encodingInv s hh).inv rfl
    | decompress hdr i d => exact (begin_decompress_decodingInv s hh).inv rfl
  · exact inv_raise _ _ _ _

/-! ### COMPRESS: a pass stays within the payload -/

theorem zeroRunLength_le (pay : List Byte) {i : Nat} (hi : i ≤ pay.length) :
    i + zeroRunLength pay i ≤ pay.length := by
  obtain ⟨-, -, hzero, -⟩ := zeroRunFrom_spec pay i zrunMax 0
  by_contra hgt
  have hlast := hzero (pay.length - i) (Nat.zero_le _) (by unfold zeroRunLength at hgt; omega)
  simp [Nat.add_sub_cancel' hi] at hlast

/-- A match from a candidate ends within the payload (41_lz77_encoder.md R115). -/
theorem matchLength_le {win pay : List Byte} {i j : Nat} (p : Nat) (h : isCandidate win pay i j = true) :
    i + matchLength win pay i p j ≤ pay.length := by
  obtain ⟨⟨htwo, -⟩, -⟩ : (i + 1 < pay.length ∧ _) ∧ _ := by
    simpa only [isCandidate, Bool.and_eq_true, decide_eq_true_eq] using h
  obtain ⟨-, -, hagree, -⟩ := extendMatch_spec win pay i p j pay.length matchMin
  by_contra hgt
  obtain ⟨hlast, -, -⟩ := hagree (pay.length - i) (show 2 ≤ _ by omega) (by unfold matchLength at hgt; omega)
  omega

theorem considerStart_le {win pay : List Byte} {i : Nat} (p : Nat) {best : Nat × Nat} (j : Nat)
    (h : i + best.1 ≤ pay.length) : i + (considerStart win pay i p best j).1 ≤ pay.length := by
  unfold considerStart
  split
  · next hc =>
    exact matchLength_le p (Bool.and_eq_true_iff.1 hc).1
  · exact h

theorem longestMatch_le (win pay : List Byte) {i : Nat} (p : Nat) (hi : i ≤ pay.length) :
    i + (longestMatch win pay i p).1 ≤ pay.length :=
  List.foldlRecOn (motive := fun best => i + best.1 ≤ pay.length) (List.range (p - 1)) (considerStart win pay i p)
    hi fun _ hbest j _ => considerStart_le p j hbest

/-! ### COMPRESS: the stream and its open run -/

/-- What EncodingInv says of STR_OUT and its registers: the open run's count byte is exact, the capacity is kept. -/
structure StreamInv (s : State) : Prop where
  literalRun : s.litActive = true → s.LiteralRunOpen
  capacity : Fits s.caps.maxStreamOut s.olen

/-- What an emission from s leaves: an exact stream within its capacity, and the payload and I as they were. -/
structure Emitted (s t : State) : Prop where
  stream : StreamInv t
  index : t.i = s.i
  payload : t.payIn = s.payIn

/-- A Backref's bytes or a ZeroRun end the open run (R127), so the stream is exact as soon as it fits. -/
theorem emitted_of_emitAll {bs : List Byte} {s t : State} (hs : StreamInv s) (h : emitAll bs s = .ok t) :
    Emitted s t.endLiteralRun := by
  rcases emitAll_cases bs s hs.capacity with ⟨hfits, hok⟩ | ⟨-, herr⟩
  · obtain rfl := Except.ok.inj (hok.symm.trans h)
    exact ⟨⟨fun hl => (nomatch hl), by simpa [State.olen] using hfits⟩, rfl, rfl⟩
  · cases herr.symm.trans h

theorem emitAll_singleton (b : Byte) (s : State) : emitAll [b] s = emit b s := by
  rw [emitAll_cons]
  cases emit b s <;> rfl

/-- With an exact open run, the next literal extends it or starts a new one (R119). -/
theorem extends_or_startsRun {s : State} (h : s.litActive = true → s.LiteralRunOpen) :
    (∃ c, s.Extends c) ∨ s.StartsRun := by
  cases hl : s.litActive with
  | false => exact .inr (.inl hl)
  | true =>
    obtain ⟨c, hc, -⟩ := h hl
    by_cases hfull : c = 127
    · exact .inr (.inr (hfull ▸ hc))
    · exact .inl ⟨c, hl, hc, hfull⟩

/-- The run that a literal extends is exact again: one more byte, and 1 more in its count byte. -/
theorem literalRunOpen_of_extends {s : State} {c : Byte} (hc : s.Extends c) (h : s.LiteralRunOpen) (x : Byte) :
    (s.setDest .strOut (s.strOut.set s.litHdr (c + 1) ++ [x])).LiteralRunOpen := by
  obtain ⟨-, hget, hfull⟩ := hc
  obtain ⟨c', hget', h1, h127, hend⟩ := h
  obtain rfl : c = c' := Option.some.inj (hget.symm.trans hget')
  have hlt : s.litHdr < s.strOut.length := (List.getElem?_eq_some_iff.1 hget).1
  have hne : c.toNat ≠ 127 := fun h => hfull (BitVec.eq_of_toNat_eq h)
  have hsucc : (c + 1).toNat = c.toNat + 1 := by
    rw [BitVec.toNat_add]
    exact Nat.mod_eq_of_lt (show c.toNat + 1 < 256 by omega)
  refine ⟨c + 1, ?_, by omega, by omega, ?_⟩
  · simp [List.getElem?_append_left, hlt]
  · rw [hsucc]
    simp only [State.olen, setDest_strOut_strOut, setDest_strOut_litHdr, List.length_append, List.length_set,
      List.length_singleton] at hend ⊢
    omega

theorem emitted_of_emitLiteral {x : Byte} {s t : State} (hs : StreamInv s) (h : emitLiteral x s = .ok t) :
    Emitted s t := by
  rcases extends_or_startsRun hs.literalRun with ⟨c, hc⟩ | hstart
  · by_cases hfits : Fits s.caps.maxStreamOut (s.olen + 1)
    · obtain rfl := Except.ok.inj ((emitLiteral_extends x c s hc hfits).symm.trans h)
      have hopen := literalRunOpen_of_extends hc (hs.literalRun hc.1) x
      exact ⟨⟨fun _ => hopen, by simpa [State.olen] using hfits⟩, rfl, rfl⟩
    · cases (emitLiteral_error x s (.inl ⟨c, hc, hfits⟩)).symm.trans h
  · by_cases hfits : Fits s.caps.maxStreamOut (s.olen + 2)
    · obtain rfl := Except.ok.inj ((emitLiteral_starts x s hstart hfits).symm.trans h)
      exact ⟨⟨fun _ => ⟨1, by simp [State.olen], by decide, by decide, by simp [State.olen]⟩,
        by simpa [State.olen] using hfits⟩, rfl, rfl⟩
    · cases (emitLiteral_error x s (.inr ⟨hstart, hfits⟩)).symm.trans h

/-! ### COMPRESS: a pass -/

/-- Advancing over payload bytes that were there (R128). -/
theorem Emitted.consume {s t : State} (h : Emitted s t) {n : Nat} (hn : s.i + n ≤ s.plen) :
    StreamInv (t.consume n) ∧ (t.consume n).i ≤ (t.consume n).plen := by
  refine ⟨⟨h.stream.literalRun, h.stream.capacity⟩, ?_⟩
  simpa [State.plen, h.index, h.payload] using hn

theorem emitChoice_keeps {c : Choice} {s t : State} (hs : StreamInv s) (hbest : s.i + s.bestL ≤ s.plen)
    (hz : s.i + s.z ≤ s.plen) (h : emitChoice c s = .ok t) : StreamInv t ∧ t.i ≤ t.plen := by
  cases c with
  | backref =>
    obtain ⟨u, hu, h⟩ := bind_eq_ok h
    obtain ⟨v, hv, hu⟩ := bind_eq_ok hu
    cases hu
    cases h
    exact (emitted_of_emitAll hs hv).consume hbest
  | zeroRun =>
    obtain ⟨u, hu, h⟩ := bind_eq_ok h
    obtain ⟨v, hv, hu⟩ := bind_eq_ok hu
    rw [← emitAll_singleton] at hv
    cases hu
    cases h
    exact (emitted_of_emitAll hs hv).consume hz
  | literal =>
    obtain ⟨x, hx, h⟩ := bind_eq_ok h
    obtain ⟨u, hu, h⟩ := bind_eq_ok h
    cases h
    have hlt : s.i < s.plen := (List.getElem?_eq_some_iff.1 ((memRead_ok_iff _ _ _ _).1 hx)).1
    exact (emitted_of_emitLiteral hs hu).consume hlt

/-- A pass keeps the stream exact and within its capacity, and I within the payload. -/
theorem encodeStep_keeps {s t : State} (hi : s.i ≤ s.plen) (hs : StreamInv s) (h : encodeStep s = .ok t) :
    StreamInv t ∧ t.i ≤ t.plen :=
  emitChoice_keeps (s := scan s) ⟨hs.literalRun, hs.capacity⟩ (longestMatch_le _ _ _ hi) (zeroRunLength_le _ hi) h

theorem State.RunningInv.changedByEncoder {s t : State} (h : ChangedByEncoder s t) (hs : s.RunningInv) :
    t.RunningInv := by
  rw [h]
  exact { hs with }

theorem encodeStep_encodingInv {s t : State} (hs : s.EncodingInv) (h : encodeStep s = .ok t) : t.EncodingInv := by
  have hch := changedByEncoder_of_encodeStep h
  obtain ⟨hstream, hindex⟩ := encodeStep_keeps hs.index ⟨hs.literalRun, hs.capacity⟩ h
  exact { hs.toRunningInv.changedByEncoder hch with
    index := hindex
    window := by rw [hch]; exact hs.window
    literalRun := hstream.literalRun
    capacity := hstream.capacity }

theorem runEncoder_inv {s t : State} (hp : s.phase = .encoding) (hs : s.EncodingInv) (h : runEncoder s = .next t) :
    t.Inv := by
  rcases runEncoder_outcome h with hok | ⟨p, rfl⟩ | rfl
  · obtain ⟨hphase, -⟩ := (changedByEncoder_of_encodeStep hok).reports
    exact (encodeStep_encodingInv hs hok).inv (hphase.trans hp)
  · exact inv_raise s _ p false
  · exact inv_finish hs.faultPos _ (fun hu => nomatch hu)

/-! ### DECOMPRESS: an opcode -/

/-- The opcode at IP is the one its leading byte classifies as, also a LiteralRun cut short (R141, R142). -/
theorem fetch_of_drop_eq_cons {s : State} {b : Byte} {rest : List Byte} (h : s.strIn.drop s.ip = b :: rest) :
    fetch s = some (classify b rest) := by
  by_cases hshort : rest.length < operandBytes b
  · simp [fetch, h, decode, hshort]
  · simp [fetch, h, decode, hshort]

theorem fetch_of_drop_eq_nil {s : State} (h : s.strIn.drop s.ip = []) : fetch s = none := by
  simp [fetch, h, decode]

theorem fetch_some {s : State} {i : Instr} (h : fetch s = some i) :
    s.ip < s.slen ∧ ∃ b rest, i = classify b rest := by
  cases hbytes : s.strIn.drop s.ip with
  | nil => cases (fetch_of_drop_eq_nil hbytes).symm.trans h
  | cons b rest =>
    have hlt : s.ip < s.strIn.length := by
      have hlen := congrArg List.length hbytes
      simp only [List.length_drop, List.length_cons] at hlen
      omega
    exact ⟨hlt, b, rest, Option.some.inj (h.symm.trans (fetch_of_drop_eq_cons hbytes))⟩

/-- A LiteralRun that is read carries no more data bytes than it counts. -/
theorem classify_lit_length_le {b : Byte} {rest ds : List Byte} {k : Nat} (h : classify b rest = .lit k ds) :
    ds.length ≤ k := by
  unfold classify at h
  split_ifs at h
  cases h
  exact List.length_take_le _ _

theorem OpcodeCompletes.pointer {s t : State} {i : Instr} (h : OpcodeCompletes s i t) (hlt : s.ip < s.slen) :
    t.ip ≤ t.slen := by
  cases h with
  | lit k ds hdata => simpa [Nat.add_assoc] using hdata
  | zrun | stop | brext | bref => exact hlt

/-- OUT only grows, and CUR by as much (10_state.md R30, R34). -/
theorem OpcodeCompletes.grows {s t : State} {i : Instr} (h : OpcodeCompletes s i t) :
    ∃ bs, t.out = s.out ++ bs ∧ t.cur = s.cur + bs.length := by
  cases h with
  | lit k ds => exact ⟨ds, rfl, rfl⟩
  | zrun c => exact ⟨List.replicate c 0, rfl, rfl⟩
  | bref m q bs => exact ⟨bs, rfl, rfl⟩
  | stop => exact ⟨[], by simp, by simp⟩
  | brext f v => exact ⟨[], by simp, by simp⟩

theorem OpcodeCompletes.cursor {s t : State} {i : Instr} (h : OpcodeCompletes s i t) (hc : s.cur = s.out.length) :
    t.cur = t.out.length := by
  obtain ⟨bs, hout, hcur⟩ := h.grows
  rw [hout, hcur, hc, List.length_append]

/-- The first bytes of OUT stay. -/
theorem OpcodeCompletes.take_out {s t : State} {i : Instr} (h : OpcodeCompletes s i t) {n : Nat}
    (hn : n ≤ s.out.length) : t.out.take n = s.out.take n := by
  obtain ⟨bs, hout, -⟩ := h.grows
  rw [hout, List.take_append_of_le_length hn]

/-- The chain's registers stay multiples of 8 that are 0 outside a chain (R31, R32). -/
structure ChainInv (s : State) : Prop where
  length8 : 8 ∣ s.na
  distance8 : 8 ∣ s.sa
  chain : s.chainOpen = false → s.na = 0 ∧ s.sa = 0

theorem OpcodeCompletes.chainInv {s t : State} {i : Instr} (h : OpcodeCompletes s i t) (hs : ChainInv s) :
    ChainInv t := by
  cases h with
  | lit | zrun | stop => exact ⟨hs.length8, hs.distance8, hs.chain⟩
  | bref => exact ⟨Nat.dvd_zero 8, Nat.dvd_zero 8, fun _ => ⟨rfl, rfl⟩⟩
  | brext f v =>
    have h8 (n : Nat) : 8 ∣ n <<< 3 := ⟨n, by rw [Nat.shiftLeft_eq]; omega⟩
    exact ⟨hs.length8.add (h8 f), hs.distance8.add (h8 v), fun h => nomatch h⟩

/-- What fits after a write of at most m bytes, where there was room for m. -/
theorem fits_of_hasRoom {s : State} {m n : Nat} (h : s.HasRoom m) (hn : n ≤ m) :
    Fits s.caps.maxPayloadOut (s.cur + n - 48) := Fits.mono h (by omega)

theorem OpcodeCompletes.capacity {s t : State} {i : Instr} (h : OpcodeCompletes s i t)
    (hdata : ∀ k ds, i = .lit k ds → ds.length ≤ k) (hs : Fits s.caps.maxPayloadOut (s.cur - 48)) :
    Fits t.caps.maxPayloadOut (t.cur - 48) := by
  cases h with
  | lit k ds _ hroom => simpa using fits_of_hasRoom hroom (hdata k ds rfl)
  | zrun c hroom => simpa using fits_of_hasRoom hroom c.le_refl
  | bref m q bs hroom hlen => simpa using fits_of_hasRoom hroom hlen.le
  | stop | brext => exact hs

theorem State.RunningInv.changedByDecoder {s t : State} (h : ChangedByDecoder s t) (hs : s.RunningInv) :
    t.RunningInv := by
  rw [h]
  exact { hs with }

theorem OpcodeCompletes.decodingInv {s t : State} {i : Instr} (h : OpcodeCompletes s i t) (hf : fetch s = some i)
    (hs : s.DecodingInv) : t.DecodingInv := by
  obtain ⟨hlt, b, rest, rfl⟩ := fetch_some hf
  have hctx : t.ctx = s.ctx := by rw [h.changedByDecoder]
  have h48 : 48 ≤ s.out.length := by
    have hlen := congrArg List.length hs.prefix48
    rw [hs.context, contextOf_length hs.header, List.length_take] at hlen
    omega
  obtain ⟨hna, hsa, hchain⟩ := h.chainInv ⟨hs.length8, hs.distance8, hs.chain⟩
  exact { hs.toRunningInv.changedByDecoder h.changedByDecoder with
    pointer := h.pointer hlt
    cursor := h.cursor hs.cursor
    prefix48 := by rw [h.take_out h48, hs.prefix48, hctx]
    length8 := hna
    distance8 := hsa
    chain := hchain
    capacity := h.capacity (fun _ _ => classify_lit_length_le) hs.capacity }

theorem exec_inv {s t : State} {i : Instr} (hp : s.phase = .decoding) (hs : s.DecodingInv) (hf : fetch s = some i)
    (h : exec i s = .next t) : t.Inv := by
  rcases exec_outcome h with hok | ⟨e, -, rfl⟩
  · obtain ⟨hphase, -⟩ := hok.changedByDecoder.reports
    exact (hok.decodingInv hf hs).inv (hphase.trans hp)
  · exact inv_raise s e _ _

theorem endOfStream_inv {s t : State} (hs : s.DecodingInv) (h : endOfStream s = .next t) : t.Inv := by
  rcases endOfStream_outcome h with rfl | rfl
  · exact inv_finish hs.faultPos _ (fun _ => ⟨_, rfl⟩)
  · exact inv_raise s _ _ _

/-! ### A step -/

/-- Settles O54, by what the core is doing. -/
theorem stepKeepsInv : Obligations.StepKeepsInv := by
  intro s t hs h
  cases hp : s.phase with
  | idle =>
    cases hq : s.pending with
    | nil =>
      rw [step_waiting hp hq] at h
      exact Host.Outcome.next.inj h ▸ hs
    | cons c rest =>
      rw [step_issued hp hq] at h
      exact startCommand_inv h
  | encoding =>
    rw [step_encoding hp] at h
    exact runEncoder_inv hp (hs.encoding hp) h
  | decoding =>
    cases hf : fetch s with
    | some i =>
      rw [step_fetched hp hf] at h
      exact exec_inv hp (hs.decoding hp) hf h
    | none =>
      rw [step_endOfStream hp hf] at h
      exact endOfStream_inv (hs.decoding hp) h

/-- Settles O56: a step in the loop keeps CUR = len(OUT), and a DECOMPRESS's start enters it with both 48. -/
theorem cursorIsOutLength : Obligations.CursorIsOutLength := by
  intro s t hs h hdec
  cases hp : s.phase with
  | idle =>
    cases hq : s.pending with
    | nil =>
      rw [step_waiting hp hq] at h
      cases h
      exact hs hdec
    | cons c rest =>
      rw [step_issued hp hq] at h
      exact ((startCommand_inv h).decoding hdec).cursor
  | encoding =>
    rw [step_encoding hp] at h
    rcases runEncoder_outcome h with hok | ⟨p, rfl⟩ | rfl
    · obtain ⟨hphase, -⟩ := (changedByEncoder_of_encodeStep hok).reports
      cases hdec.symm.trans (hphase.trans hp)
    · cases hdec
    · cases hdec
  | decoding =>
    cases hf : fetch s with
    | some i =>
      rw [step_fetched hp hf] at h
      rcases exec_outcome h with hok | ⟨e, -, rfl⟩
      · exact hok.cursor (hs hp)
      · cases hdec
    | none =>
      rw [step_endOfStream hp hf] at h
      rcases endOfStream_outcome h with rfl | rfl
      · cases hdec
      · cases hdec

end Sys2Proof.Machine
end

section
/-! PROOF. No state survives from one command to the next (10_state.md R22, 20_memory.md R57, R62); O37. A command's
start overwrites every field but the capacities, the host's list and the counter of the free values, and no operation
reads that counter but the entry of a fault, which leaves an idle core. -/

namespace Sys2Proof.Machine

/-! ### Operations that do not look at the counter of the free values -/

/-- The state with another counter of the free values. -/
def State.withDraws (n : Nat) (s : State) : State := { s with freeIdx := n }

/-- An operation neither reads nor writes the counter of the free values. -/
def IgnoresDraws (f : State → Except Halt State) : Prop :=
  ∀ n s, f (s.withDraws n) = (f s).map (State.withDraws n)

theorem ignoresDraws_ok {g : State → State} (h : ∀ n s, g (s.withDraws n) = (g s).withDraws n) :
    IgnoresDraws fun s => .ok (g s) := fun n s => congrArg Except.ok (h n s)

theorem IgnoresDraws.bind {f g : State → Except Halt State} (hf : IgnoresDraws f) (hg : IgnoresDraws g) :
    IgnoresDraws fun s => f s >>= g := by
  intro n s
  simp only [hf n s]
  cases f s with
  | error h => rfl
  | ok t => exact hg n t

/-- An operation that goes on with a value it read, or after a check. -/
theorem IgnoresDraws.read {α : Type} {r : State → Except Halt α} {f : α → State → Except Halt State}
    (hr : ∀ n s, r (s.withDraws n) = r s) (hf : ∀ a, IgnoresDraws (f a)) :
    IgnoresDraws fun s => r s >>= fun a => f a s := by
  intro n s
  simp only [hr n s]
  cases r s with
  | error h => rfl
  | ok a => exact hf a n s

/-! ### COMPRESS -/

theorem ignoresDraws_emit (b : Byte) : IgnoresDraws (emit b) := by
  intro n s
  by_cases h : Fits s.caps.maxStreamOut (s.olen + 1)
  · rw [emit_ok b s h, emit_ok b (s.withDraws n) h]
    rfl
  · rw [emit_error b s h, emit_error b (s.withDraws n) h]
    rfl

theorem ignoresDraws_emitAll (bs : List Byte) : IgnoresDraws (emitAll bs) := by
  induction bs with
  | nil => exact ignoresDraws_ok fun _ _ => rfl
  | cons b bs ih =>
    rw [funext (emitAll_cons b bs)]
    exact (ignoresDraws_emit b).bind ih

theorem ignoresDraws_openRun : IgnoresDraws openRun := by
  rw [funext openRun_eq]
  refine .read (fun _ _ => rfl) fun goesOn => ?_
  cases goesOn with
  | true => exact ignoresDraws_ok fun _ _ => rfl
  | false => exact fun n s => ignoresDraws_emit 0 n s.openLiteralRun

theorem ignoresDraws_memWrite_strOut (a : Nat) (b : Byte) : IgnoresDraws (memWrite .strOut a b) := by
  intro n s
  have hspace : (s.withDraws n).space Dest.strOut.space = s.space Dest.strOut.space := rfl
  rw [memWrite, memWrite, hspace]
  split
  · rfl
  · split
    · rfl
    · rfl

theorem ignoresDraws_bumpCount : IgnoresDraws bumpCount := by
  rw [funext bumpCount_eq]
  exact .read (fun _ _ => rfl) fun count n s => ignoresDraws_memWrite_strOut s.litHdr (count + 1) n s

theorem ignoresDraws_emitLiteral (x : Byte) : IgnoresDraws (emitLiteral x) :=
  ignoresDraws_openRun.bind ((ignoresDraws_emit x).bind ignoresDraws_bumpCount)

theorem ignoresDraws_emitZeroRun (z : Nat) : IgnoresDraws (emitZeroRun z) :=
  (ignoresDraws_emit _).bind (ignoresDraws_ok fun _ _ => rfl)

theorem ignoresDraws_emitBackref (l d : Nat) : IgnoresDraws (emitBackref l d) :=
  (ignoresDraws_emitAll _).bind (ignoresDraws_ok fun _ _ => rfl)

theorem IgnoresDraws.consume {f : State → Except Halt State} (hf : IgnoresDraws f) (k : Nat) :
    IgnoresDraws fun s => f s >>= fun t => pure (t.consume k) := hf.bind (ignoresDraws_ok fun _ _ => rfl)

theorem ignoresDraws_emitChoice (c : Choice) : IgnoresDraws (emitChoice c) := by
  cases c with
  | backref => exact fun n s => (ignoresDraws_emitBackref s.bestL (s.pos - s.bestJ)).consume s.bestL n s
  | zeroRun => exact fun n s => (ignoresDraws_emitZeroRun s.z).consume s.z n s
  | literal => exact .read (fun _ _ => rfl) fun x => (ignoresDraws_emitLiteral x).consume 1

theorem ignoresDraws_encodeStep : IgnoresDraws encodeStep := fun n s => ignoresDraws_emitChoice _ n (scan s)

/-! ### DECOMPRESS -/

theorem copyInto_succ (src : Space) (d : Dest) (n base : Nat) (s : State) : copyInto src d (n + 1) base s =
    memRead src base s >>= fun b => copyInto src d n (base + 1) (append d b s) := by
  rw [copyInto]
  cases memRead src base s <;> rfl

theorem ignoresDraws_copyInto_out (n base : Nat) : IgnoresDraws (copyInto .out .out n base) := by
  induction n generalizing base with
  | zero => exact ignoresDraws_ok fun _ _ => rfl
  | succ n ih =>
    rw [funext (copyInto_succ .out .out n base)]
    exact .read (fun _ _ => rfl) fun b m s => ih (base + 1) m (append .out b s)

theorem ignoresDraws_appendAll_out (bs : List Byte) (k : Nat) :
    IgnoresDraws fun s => .ok ((appendAll .out bs s).advance k) :=
  ignoresDraws_ok fun n s => by rw [appendAll_eq, appendAll_eq]; rfl

theorem ignoresDraws_raise (e : ErrorKind) (p : State → Nat) (hp : ∀ n s, p (s.withDraws n) = p s) :
    IgnoresDraws fun s => .error (.raise e (p s)) := fun n s =>
  congrArg (fun q => Except.error (Halt.raise e q)) (hp n s)

/-- Every opcode settles an operation that does not look at the counter. -/
theorem exec_settles (i : Instr) : ∃ f, IgnoresDraws f ∧ ∀ s, exec i s = settle s.stopSeen s (f s) := by
  have reserved : ∃ f, IgnoresDraws f ∧ ∀ s, raiseReserved s = settle s.stopSeen s (f s) :=
    ⟨_, ignoresDraws_raise .reservedOpcode (·.ip) fun _ _ => rfl, fun _ => rfl⟩
  cases i with
  | lit k ds =>
    exact ⟨_, .read (r := needData k) (fun _ _ => rfl) fun _ => .read (r := room k) (fun _ _ => rfl) fun _ =>
      ignoresDraws_appendAll_out ds (1 + k), fun _ => rfl⟩
  | zrun c =>
    exact ⟨_, .read (r := room c) (fun _ _ => rfl) fun _ => ignoresDraws_appendAll_out (List.replicate c 0) 1,
      fun _ => rfl⟩
  | bref m q =>
    exact ⟨_, .read (r := fun s => needDistance (refDistance m q s) s) (fun _ _ => rfl) fun _ =>
      .read (r := fun s => room (refLength m s) s) (fun _ _ => rfl) fun _ n s =>
        ((ignoresDraws_copyInto_out (refLength m s) (s.cur - refDistance m q s)).bind
          (ignoresDraws_ok (g := fun t => t.closeChain.advance 1) fun _ _ => rfl)) n s, fun _ => rfl⟩
  | stop => exact ⟨_, ignoresDraws_ok fun _ _ => rfl, fun _ => rfl⟩
  | brext f v => exact ⟨_, ignoresDraws_ok fun _ _ => rfl, fun _ => rfl⟩
  | reserved91 => exact reserved
  | reserved92 x => exact reserved
  | reserved94 x => exact reserved
  | reserved98 x => exact reserved

/-! ### Two cores the host cannot tell apart -/

/-- Two cores agree on all the host can see and on all that a later command depends on: on every field while a command
runs, but for the counter of the free values. -/
structure HostAgree (s s' : State) : Prop where
  phase : s'.phase = s.phase
  pending : s'.pending = s.pending
  caps : s'.caps = s.caps
  result : s'.result = s.result
  status : s'.status = s.status
  faultPos : s'.faultPos = s.faultPos
  running : s.phase ≠ .idle → ∃ n, s' = s.withDraws n

theorem hostAgree_withDraws (s : State) (n : Nat) : HostAgree s (s.withDraws n) :=
  ⟨rfl, rfl, rfl, rfl, rfl, rfl, fun _ => ⟨n, rfl⟩⟩

/-- After a fault the destination buffers hold other free values, but the core is idle. -/
theorem hostAgree_raise (s : State) (n : Nat) (e : ErrorKind) (p : Nat) (u : Bool) :
    HostAgree (s.raise e p u) ((s.withDraws n).raise e p u) :=
  ⟨rfl, rfl, rfl, rfl, rfl, rfl, fun h => absurd rfl h⟩

/-- The second outcome follows the first: where that is a next state, it is one that agrees. -/
def Follows (o o' : Host.Outcome State Fault Refusal) : Prop :=
  ∀ t, o = .next t → ∃ t', o' = .next t' ∧ HostAgree t t'

theorem follows_next {s s' : State} (h : HostAgree s s') : Follows (.next s) (.next s') := by
  rintro t ⟨⟩
  exact ⟨s', rfl, h⟩

theorem follows_settle {f : State → Except Halt State} (hf : IgnoresDraws f) (u : Bool) (s : State) (n : Nat) :
    Follows (settle u s (f s)) (settle u (s.withDraws n) (f (s.withDraws n))) := by
  rw [hf n s]
  cases f s with
  | ok t => exact follows_next (hostAgree_withDraws t n)
  | error h =>
    cases h with
    | raise e p => exact follows_next (hostAgree_raise s n e p u)
    | stuck _ => exact fun t ht => nomatch ht

/-! ### A step -/

theorem built_withDraws (c : Command) {s s' : State} (hcaps : s'.caps = s.caps) (hpending : s'.pending = s.pending) :
    s'.built c = (s.built c).withDraws s'.freeIdx := by
  simp only [State.built, State.initial, State.setDest, State.withDraws, hcaps, hpending]

theorem begin_withDraws (c : Command) (s : State) (n : Nat) : (s.withDraws n).begin c = (s.begin c).withDraws n := by
  cases c <;> rfl

/-- The start of a command does not depend on what the last one left (R22). -/
theorem follows_startCommand (c : Command) {s s' : State} (hcaps : s'.caps = s.caps)
    (hpending : s'.pending = s.pending) : Follows (startCommand c s) (startCommand c s') := by
  by_cases hd : c.Disjoint
  · by_cases hh : 40 ≤ c.header.length
    · rw [startCommand_ok s hd hh, startCommand_ok s' hd hh, built_withDraws c hcaps hpending, begin_withDraws]
      exact follows_next (hostAgree_withDraws _ _)
    · rw [startCommand_short s hd (Nat.lt_of_not_le hh), startCommand_short s' hd (Nat.lt_of_not_le hh)]
      exact follows_next ⟨rfl, hpending, hcaps, rfl, rfl, rfl, fun h => absurd rfl h⟩
  · rw [startCommand_overlapping s hd]
    exact fun t ht => nomatch ht

theorem follows_runEncoder (s : State) (n : Nat) : Follows (runEncoder s) (runEncoder (s.withDraws n)) := by
  by_cases hi : s.i < s.plen
  · have hi' : (s.withDraws n).i < (s.withDraws n).plen := hi
    rw [runEncoder, runEncoder, if_pos hi, if_pos hi']
    exact follows_settle ignoresDraws_encodeStep false s n
  · have hi' : ¬ (s.withDraws n).i < (s.withDraws n).plen := hi
    rw [runEncoder, runEncoder, if_neg hi, if_neg hi']
    exact follows_next (hostAgree_withDraws _ n)

theorem follows_exec (i : Instr) (s : State) (n : Nat) : Follows (exec i s) (exec i (s.withDraws n)) := by
  obtain ⟨f, hf, hexec⟩ := exec_settles i
  rw [hexec, hexec]
  exact follows_settle hf s.stopSeen s n

theorem follows_endOfStream (s : State) (n : Nat) : Follows (endOfStream s) (endOfStream (s.withDraws n)) := by
  cases ho : s.chainOpen with
  | true =>
    rw [endOfStream_open ho, endOfStream_open (s := s.withDraws n) ho]
    exact follows_next (hostAgree_raise s n _ _ _)
  | false =>
    rw [endOfStream_closed ho, endOfStream_closed (s := s.withDraws n) ho]
    exact follows_next (hostAgree_withDraws _ n)

theorem HostAgree.follows_step {s s' : State} (h : HostAgree s s') : Follows (step s) (step s') := by
  cases hp : s.phase with
  | idle =>
    have hp' := h.phase.trans hp
    cases hq : s.pending with
    | nil =>
      rw [step_waiting hp hq, step_waiting hp' (h.pending.trans hq)]
      exact follows_next h
    | cons c rest =>
      rw [step_issued hp hq, step_issued hp' (h.pending.trans hq)]
      exact follows_startCommand c h.caps rfl
  | encoding =>
    obtain ⟨n, rfl⟩ := h.running (by simp [hp])
    rw [step_encoding hp, step_encoding (s := s.withDraws n) hp]
    exact follows_runEncoder s n
  | decoding =>
    obtain ⟨n, rfl⟩ := h.running (by simp [hp])
    cases hf : fetch s with
    | some i =>
      rw [step_fetched hp hf, step_fetched (s := s.withDraws n) hp hf]
      exact follows_exec i s n
    | none =>
      rw [step_endOfStream hp hf, step_endOfStream (s := s.withDraws n) hp hf]
      exact follows_endOfStream s n

/-! ### Runs -/

theorem runSteps_succ_next {k : Nat} {s t : State} (h : runSteps (k + 1) s = .next t) :
    ∃ u, step s = .next u ∧ runSteps k u = .next t := by
  simp only [runSteps, Host.Core.run] at h
  split at h
  · next u hu => exact ⟨u, hu, h⟩
  · cases h
  · cases h

theorem HostAgree.follows_runSteps {k : Nat} {s s' : State} (h : HostAgree s s') :
    Follows (runSteps k s) (runSteps k s') := by
  induction k generalizing s s' with
  | zero => exact follows_next h
  | succ k ih =>
    intro t ht
    obtain ⟨u, hu, ht⟩ := runSteps_succ_next ht
    obtain ⟨u', hu', hagree⟩ := h.follows_step u hu
    rw [runSteps_succ k s' u' hu']
    exact ih hagree t ht

/-- Two idle cores that are given the same command agree after its start, whatever else they hold. -/
theorem follows_issued {s s' : State} {c : Command} {rest : List Command} (h : s.Issues c rest)
    (h' : s'.Issues c rest) (hcaps : s'.caps = s.caps) : Follows (step s) (step s') := by
  obtain ⟨hp, hq⟩ := h
  obtain ⟨hp', hq'⟩ := h'
  rw [step_issued hp hq, step_issued hp' hq']
  exact follows_startCommand c hcaps rfl

/-- Settles O37: after the first step, the command's start, the two cores agree, and every step keeps that. -/
theorem commandsAreStateless : Obligations.CommandsAreStateless := by
  intro s s' t c k hs hs' hcaps ht
  obtain ⟨u, hu, ht⟩ := runSteps_succ_next ht
  obtain ⟨u', hu', hagree⟩ := follows_issued hs hs' hcaps.symm u hu
  obtain ⟨t', ht', hend⟩ := hagree.follows_runSteps t ht
  rw [← runSteps_succ k s' u' hu'] at ht'
  exact ⟨t', ht', hend.phase, hend.result, hend.status, hend.faultPos⟩

end Sys2Proof.Machine
end

section
/-! PROOF. What the operations and the steps of a running command do to the address spaces: the copy operation byte by
byte (20_memory.md R55, 70_reset_and_hazards.md R194), and who writes what (20_memory.md R50, R51, R66); O20, O22 and
O29. -/

namespace Sys2Proof.Machine

/-! ### The copy operation -/

/-- A copy within OUT from a byte OUT has, also where the ranges overlap: each byte that is appended is the byte of the
grown OUT at its source index, since it is read after the writes before it. -/
theorem copyInto_out_bytewise (n base : Nat) (s : State) (h : base < s.out.length) :
    ∃ bs, bs.length = n ∧ copyInto .out .out n base s = .ok (s.extend .out bs) ∧
      ∀ k, k < n → bs[k]? = (s.out ++ bs)[base + k]? := by
  induction n generalizing base s with
  | zero => exact ⟨[], rfl, by rw [extend_nil]; rfl, fun k hk => absurd hk k.not_lt_zero⟩
  | succ n ih =>
    have hgrown : base + 1 < (s.extend .out [s.out[base]]).out.length := by simpa using h
    obtain ⟨bs, hlen, hcopy, hbytes⟩ := ih (base + 1) (s.extend .out [s.out[base]]) hgrown
    refine ⟨s.out[base] :: bs, by rw [List.length_cons, hlen], ?copy, fun k hk => ?byte⟩
    case copy =>
      rw [copyInto, memRead_lt .out base s h]
      exact hcopy.trans (by rw [extend_extend, List.singleton_append])
    case byte =>
      cases k with
      | zero => simp [List.getElem?_append_left h]
      | succ k =>
        simpa [Nat.add_assoc, Nat.add_comm 1] using hbytes k (Nat.lt_of_succ_lt_succ hk)

/-- Settles O20, from what a copy within OUT appends. -/
theorem copyIsByteByByte : Obligations.CopyIsByteByByte := by
  intro s n base hcur hbase
  obtain ⟨bs, rfl, hcopy, hbytes⟩ := copyInto_out_bytewise n base s (hcur ▸ hbase)
  refine ⟨_, hcopy, rfl, fun a ha => ?old, fun k hk => ?new⟩
  case old => rw [extend_out_out, List.getElem?_append_left (hcur ▸ ha)]
  case new =>
    rw [extend_out_out, ← hbytes k hk, hcur, List.getElem?_append_right (Nat.le_add_right _ _),
      Nat.add_sub_cancel_left]

/-! ### The inputs -/

/-- HDR, PAY_IN, WIN and STR_IN are in t what they are in s. -/
def KeepsInputs (s t : State) : Prop := t.hdr = s.hdr ∧ t.payIn = s.payIn ∧ t.win = s.win ∧ t.strIn = s.strIn

theorem ChangedByDecoder.keepsInputs {s t : State} (h : ChangedByDecoder s t) : KeepsInputs s t := by
  rw [h]
  exact ⟨rfl, rfl, rfl, rfl⟩

theorem ChangedByEncoder.keepsInputs {s t : State} (h : ChangedByEncoder s t) : KeepsInputs s t := by
  rw [h]
  exact ⟨rfl, rfl, rfl, rfl⟩

theorem keepsInputs_raise (s : State) (e : ErrorKind) (p : Nat) (u : Bool) : KeepsInputs s (s.raise e p u) :=
  ⟨rfl, rfl, rfl, rfl⟩

theorem ChangedByDecoder.ctx {s t : State} (h : ChangedByDecoder s t) : t.ctx = s.ctx := by rw [h]
theorem ChangedByDecoder.strOut {s t : State} (h : ChangedByDecoder s t) : t.strOut = s.strOut := by rw [h]
theorem ChangedByEncoder.ctx {s t : State} (h : ChangedByEncoder s t) : t.ctx = s.ctx := by rw [h]

/-- An opcode keeps the inputs, whether it completes or faults. -/
theorem exec_keepsInputs {i : Instr} {s t : State} (h : exec i s = .next t) : KeepsInputs s t := by
  rcases exec_outcome h with hok | ⟨e, -, rfl⟩
  · exact hok.changedByDecoder.keepsInputs
  · exact keepsInputs_raise s e s.ip s.stopSeen

/-- Where the inputs are kept, each reads as before. -/
theorem KeepsInputs.memRead_eq {s t : State} (h : KeepsInputs s t) {sp : Space} (a : Nat)
    (hsp : sp = .hdr ∨ sp = .payIn ∨ sp = .win ∨ sp = .strIn) : memRead sp a t = memRead sp a s := by
  obtain ⟨hhdr, hpay, hwin, hstr⟩ := h
  rcases hsp with rfl | rfl | rfl | rfl
  · exact memRead_congr (congrArg (·[a]?) hhdr)
  · exact memRead_congr (congrArg (·[a]?) hpay)
  · exact memRead_congr (congrArg (·[a]?) hwin)
  · exact memRead_congr (congrArg (·[a]?) hstr)

/-- The bytes OUT had before an opcode that completes stay. -/
theorem OpcodeCompletes.out_getElem? {s t : State} {i : Instr} (h : OpcodeCompletes s i t) {a : Nat}
    (ha : a < s.out.length) : t.out[a]? = s.out[a]? := by
  obtain ⟨bs, hout, -⟩ := h.grows
  rw [hout, List.getElem?_append_left ha]

/-- Settles O22: an opcode that completes writes OUT at its end only, and one that faults ends the command. -/
theorem opcodesWriteOnlyOut : Obligations.OpcodesWriteOnlyOut := by
  intro i s t h _
  refine ⟨fun sp a hsp => (exec_keepsInputs h).memRead_eq a hsp, fun hdec => ?_⟩
  rcases exec_outcome h with hok | ⟨e, -, rfl⟩
  · refine ⟨fun sp a hsp => ?_, fun a ha => memRead_congr (hok.out_getElem? ha)⟩
    rcases hsp with rfl | rfl
    · exact memRead_congr (congrArg (·[a]?) hok.changedByDecoder.ctx)
    · exact memRead_congr (congrArg (·[a]?) hok.changedByDecoder.strOut)
  · cases hdec

/-! ### A step of a running command -/

/-- What a step of a running command leaves of its inputs and its context, as O29 states it. -/
def InputsAndContextKept (s t : State) : Prop := KeepsInputs s t ∧ (t.err = 0 → t.ctx = s.ctx)

/-- A fault keeps the inputs, and its ERR is not 0. -/
theorem inputsAndContextKept_raise (s : State) (e : ErrorKind) (p : Nat) (u : Bool) :
    InputsAndContextKept s (s.raise e p u) := by
  refine ⟨keepsInputs_raise s e p u, fun herr => ?_⟩
  rw [raise_err] at herr
  cases e <;> cases herr

theorem inputsAndContextKept_finish (s : State) (r : Result) (u : Bool) : InputsAndContextKept s (s.finish r u) :=
  ⟨⟨rfl, rfl, rfl, rfl⟩, fun _ => rfl⟩

/-- Settles O29, by what the steps of a running command can do. -/
theorem inputsNeverWritten : Obligations.InputsNeverWritten := by
  intro s t hrun h
  suffices hkept : InputsAndContextKept s t by
    obtain ⟨⟨hhdr, hpay, hwin, hstr⟩, hctx⟩ := hkept
    exact ⟨hhdr, hpay, hwin, hstr, hctx⟩
  cases hp : s.phase with
  | idle => exact absurd hp hrun
  | encoding =>
    rw [step_encoding hp] at h
    rcases runEncoder_outcome h with hok | ⟨p, rfl⟩ | rfl
    · have hch := changedByEncoder_of_encodeStep hok
      exact ⟨hch.keepsInputs, fun _ => hch.ctx⟩
    · exact inputsAndContextKept_raise s _ p false
    · exact inputsAndContextKept_finish s _ false
  | decoding =>
    cases hf : fetch s with
    | some i =>
      rw [step_fetched hp hf] at h
      rcases exec_outcome h with hok | ⟨e, -, rfl⟩
      · exact ⟨hok.changedByDecoder.keepsInputs, fun _ => hok.changedByDecoder.ctx⟩
      · exact inputsAndContextKept_raise s e s.ip s.stopSeen
    | none =>
      rw [step_endOfStream hp hf] at h
      rcases endOfStream_outcome h with rfl | rfl
      · exact inputsAndContextKept_finish s _ s.stopSeen
      · exact inputsAndContextKept_raise s _ s.slen s.stopSeen

end Sys2Proof.Machine
end

section
/-! PROOF. Where a command's start answers a next state and where it refuses, the context BUILD returns, and why no
state of a safe run meets a stop of the model (20_memory.md R60, R63; 40_dictionary_builder.md R100, R101); O31, O33
and O55. -/

namespace Sys2Proof.Machine

/-! ### The start of a command -/

/-- A command whose buffers are disjoint has a next state at its start. -/
theorem startCommand_total {c : Command} (s : State) (hd : c.Disjoint) : ∃ t, startCommand c s = .next t := by
  by_cases hh : 40 ≤ c.header.length
  · exact ⟨_, startCommand_ok s hd hh⟩
  · exact ⟨_, startCommand_short s hd (Nat.lt_of_not_le hh)⟩

theorem step_overlapping {s : State} {c : Command} {rest : List Command} (h : s.Issues c rest) (hd : ¬ c.Disjoint) :
    step s = .refused .overlappingBuffers := by
  obtain ⟨hp, hq⟩ := h
  rw [step_issued hp hq, startCommand_overlapping _ hd]

theorem step_disjoint {s : State} {c : Command} {rest : List Command} (h : s.Issues c rest) (hd : c.Disjoint) :
    ∃ t, step s = .next t := by
  obtain ⟨hp, hq⟩ := h
  rw [step_issued hp hq]
  exact startCommand_total _ hd

/-- Settles O31: overlapping buffers are refused, and disjoint ones give a next state. -/
theorem overlappingBuffersRefused : Obligations.OverlappingBuffersRefused := by
  intro s c rest h
  refine ⟨fun href hd => ?_, step_overlapping h⟩
  obtain ⟨t, ht⟩ := step_disjoint h hd
  cases href.symm.trans ht

/-! ### The context BUILD returns -/

section
variable {hdr : List Byte} (h : 40 ≤ hdr.length)
include h

/-- CTX[0..16) is the source address (R101). -/
theorem contextOf_source {k : Nat} (hk : k < 16) : (contextOf hdr)[k]? = hdr[8 + k]? := by
  rw [contextOf, List.append_assoc, List.getElem?_append_left (by simp; omega), List.getElem?_take_of_lt hk,
    List.getElem?_drop]

/-- CTX[16..32) is the destination address (R101). -/
theorem contextOf_destination {k : Nat} (hk : k < 16) : (contextOf hdr)[16 + k]? = hdr[24 + k]? := by
  have hsrc : ((hdr.drop 8).take 16).length = 16 := by simp; omega
  rw [contextOf, List.append_assoc, List.getElem?_append_right (by omega), hsrc, Nat.add_sub_cancel_left,
    List.getElem?_append_left (by simp; omega), List.getElem?_take_of_lt hk, List.getElem?_drop]

/-- CTX[32..48) is the static dictionary (R100, R101). -/
theorem contextOf_static : (contextOf hdr).drop 32 = staticDict :=
  List.drop_left' (by simp; omega)

end

/-- Settles O33: a BUILD's start is its completion, with the context of its header. -/
theorem buildResult : Obligations.BuildResult := by
  rintro s h d rest ⟨hp, hq⟩ hd hh
  refine ⟨_, (step_issued hp hq).trans (startCommand_ok _ hd hh), rfl, rfl, rfl, rfl, ?_⟩
  exact ⟨contextOf_length hh, fun _ => contextOf_source hh, fun _ => contextOf_destination hh, contextOf_static hh,
    rfl, rfl⟩

/-! ### No operation of a safe run stops the model -/

/-- An operation completes or raises an error of the spec: it makes no access its space does not have. -/
def NeverStuck {α : Type} (x : Except Halt α) : Prop := ∀ f, x ≠ .error (.stuck f)

theorem neverStuck_ok {α : Type} (a : α) : NeverStuck (.ok a) := nofun

theorem neverStuck_raise {α : Type} (e : ErrorKind) (p : Nat) : NeverStuck (α := α) (.error (.raise e p)) := nofun

theorem NeverStuck.bind {α β : Type} {x : Except Halt α} {f : α → Except Halt β} (hx : NeverStuck x)
    (hf : ∀ a, NeverStuck (f a)) : NeverStuck (x >>= f) := by
  cases x with
  | error h => exact fun g hg => hx g (by cases hg; rfl)
  | ok a => exact hf a

/-- An operation that is never stuck settles in a next state. -/
theorem NeverStuck.settles {x : Except Halt State} (h : NeverStuck x) (u : Bool) (s : State) :
    ∃ t, settle u s x = .next t :=
  match x, h with
  | .ok t, _ => ⟨t, rfl⟩
  | .error (.raise e p), _ => ⟨s.raise e p u, rfl⟩
  | .error (.stuck f), h => (h f rfl).elim

theorem neverStuck_emitAll (bs : List Byte) {s : State} (hs : StreamInv s) : NeverStuck (emitAll bs s) := by
  rcases emitAll_cases bs s hs.capacity with ⟨-, hok⟩ | ⟨-, herr⟩
  · exact hok ▸ neverStuck_ok _
  · exact herr ▸ neverStuck_raise _ _

/-- EmitLiteral reads the count byte of an exact open run, or starts a run. -/
theorem neverStuck_emitLiteral (x : Byte) {s : State} (hs : StreamInv s) : NeverStuck (emitLiteral x s) := by
  rcases extends_or_startsRun hs.literalRun with ⟨c, hc⟩ | hstart
  · by_cases hfits : Fits s.caps.maxStreamOut (s.olen + 1)
    · exact emitLiteral_extends x c s hc hfits ▸ neverStuck_ok _
    · exact emitLiteral_error x s (.inl ⟨c, hc, hfits⟩) ▸ neverStuck_raise _ _
  · by_cases hfits : Fits s.caps.maxStreamOut (s.olen + 2)
    · exact emitLiteral_starts x s hstart hfits ▸ neverStuck_ok _
    · exact emitLiteral_error x s (.inr ⟨hstart, hfits⟩) ▸ neverStuck_raise _ _

theorem neverStuck_emitChoice (c : Choice) {s : State} (hi : s.i < s.plen) (hs : StreamInv s) :
    NeverStuck (emitChoice c s) := by
  cases c with
  | backref =>
    exact ((neverStuck_emitAll _ hs).bind fun t => neverStuck_ok _).bind fun t => neverStuck_ok _
  | zeroRun =>
    have hemit := emitAll_singleton (BitVec.ofNat 8 (0x80 ||| (s.z - 2))) s ▸ neverStuck_emitAll _ hs
    exact (hemit.bind fun t => neverStuck_ok _).bind fun t => neverStuck_ok _
  | literal =>
    have hread : NeverStuck (memRead .payIn s.i s) := memRead_lt .payIn s.i s hi ▸ neverStuck_ok _
    exact hread.bind fun x => (neverStuck_emitLiteral x hs).bind fun t => neverStuck_ok _

/-- COMPRESS always has a next state from its invariant: a pass, its OutputOverflow, or its completion. -/
theorem runEncoder_total {s : State} (hs : s.EncodingInv) : ∃ t, runEncoder s = .next t := by
  unfold runEncoder
  split
  · next hi =>
    have hpass : NeverStuck (encodeStep s) :=
      neverStuck_emitChoice (s := scan s) _ hi ⟨hs.literalRun, hs.capacity⟩
    exact hpass.settles false s
  · exact ⟨_, rfl⟩

theorem endOfStream_total (s : State) : ∃ t, endOfStream s = .next t := by
  cases ho : s.chainOpen with
  | true => exact ⟨_, endOfStream_open ho⟩
  | false => exact ⟨_, endOfStream_closed ho⟩

/-- Settles O55, by what the core is doing. -/
theorem invStatesNeverFault : Obligations.InvStatesNeverFault := by
  intro s hs
  cases hp : s.phase with
  | idle =>
    cases hq : s.pending with
    | nil => exact .inl ⟨s, step_waiting hp hq⟩
    | cons c rest =>
      have hissues : s.Issues c rest := ⟨hp, hq⟩
      by_cases hd : c.Disjoint
      · exact .inl (step_disjoint hissues hd)
      · exact .inr ⟨c, rest, hissues, hd, step_overlapping hissues hd⟩
  | encoding =>
    rw [step_encoding hp]
    exact .inl (runEncoder_total (hs.encoding hp))
  | decoding =>
    cases hf : fetch s with
    | some i =>
      rw [step_fetched hp hf]
      exact .inl (exec_total i s (hs.decoding hp).cursor)
    | none =>
      rw [step_endOfStream hp hf]
      exact .inl (endOfStream_total s)

end Sys2Proof.Machine
end

section
/-! PROOF. The opcode format (30_encoding.md R70 to R82): the map of the leading bytes as a relation, from which the
decoder, the encoder and the opcode table are shown to agree; O1 to O8. -/

namespace Sys2Proof.Machine

/-! ### Bit fields as arithmetic -/

/-- OR with a value below the alignment of the first operand is addition. -/
theorem or_eq_add {a x : Nat} (n : Nat) (ha : 2 ^ n ∣ a) (hx : x < 2 ^ n) : a ||| x = a + x := by
  obtain ⟨c, rfl⟩ := ha
  exact (Nat.two_pow_add_eq_or_of_lt hx c).symm

/-- AND with a mask of w one bits from bit lo up keeps that bit field in its place. -/
theorem toNat_and_mask (b : Byte) {mask : Byte} (lo w : Nat) (hm : mask.toNat = (2 ^ w - 1) <<< lo) :
    (b &&& mask).toNat = b.toNat / 2 ^ lo % 2 ^ w * 2 ^ lo := by
  have hfield : b.toNat &&& (2 ^ w - 1) <<< lo = ((b.toNat >>> lo) &&& (2 ^ w - 1)) <<< lo := by
    refine Nat.eq_of_testBit_eq fun i => ?_
    by_cases hi : lo ≤ i <;> simp [Nat.testBit_shiftLeft, hi, Bool.and_comm]
  rw [BitVec.toNat_and, hm, hfield, Nat.and_two_pow_sub_one_eq_mod, Nat.shiftLeft_eq, Nat.shiftRight_eq_div_pow]

theorem bits_eq (b : Byte) (hi lo : Nat) : bits b hi lo = b.toNat / 2 ^ lo % 2 ^ (hi - lo + 1) := by
  rw [bits, Nat.shiftRight_eq_div_pow]

/-! ### The map of the leading bytes (R80) -/

/-- R80's map as a relation: the opcode a leading byte b means where tail follows it, with each opcode's range of
leading bytes. -/
inductive Denotes (b : Byte) (tail : List Byte) : Instr → Prop
  | lit (h : b.toNat ≤ 0x7F) : Denotes b tail (.lit b.toNat (tail.take b.toNat))
  | zrun {c : Nat} (hmin : 2 ≤ c) (hmax : c ≤ 17) (h : b.toNat = 0x80 + (c - 2)) : Denotes b tail (.zrun c)
  | stop (h : b.toNat = 0x90) : Denotes b tail .stop
  | reserved91 (h : b.toNat = 0x91) : Denotes b tail .reserved91
  | reserved92 {x : Nat} (hx : x ≤ 1) (h : b.toNat = 0x92 + x) : Denotes b tail (.reserved92 x)
  | reserved94 {x : Nat} (hx : x ≤ 3) (h : b.toNat = 0x94 + x) : Denotes b tail (.reserved94 x)
  | reserved98 {x : Nat} (hx : x ≤ 7) (h : b.toNat = 0x98 + x) : Denotes b tail (.reserved98 x)
  | brext {f v : Nat} (hf : f ≤ 1) (hv : v ≤ 15) (h : b.toNat = 0xA0 + 16 * f + v) : Denotes b tail (.brext f v)
  | bref {m q : Nat} (hm : m ≤ 7) (hq : q ≤ 7) (h : b.toNat = 0xC0 + 8 * m + q) : Denotes b tail (.bref m q)

section
variable {b : Byte} {tail : List Byte} {i : Instr}

/-- The priority order of R72 gives the opcode of R80's map. -/
theorem Denotes.classify_eq (h : Denotes b tail i) : classify b tail = i := by
  simp only [classify, bits_eq, Nat.reduceSub, Nat.reduceAdd, Nat.reducePow, Nat.div_one]
  cases h with
  | lit h =>
    have hk : b.toNat % 128 = b.toNat := by omega
    rw [if_pos (by omega), hk]
  | zrun hmin hmax h =>
    simp (disch := omega) only [if_neg, if_pos]
    congr 1; omega
  | stop h => simp [h]
  | reserved91 h => simp [h]
  | reserved92 hx h =>
    simp (disch := omega) only [if_neg, if_pos]
    congr 1; omega
  | reserved94 hx h =>
    simp (disch := omega) only [if_neg, if_pos]
    congr 1; omega
  | reserved98 hx h =>
    simp (disch := omega) only [if_neg]
    congr 1; omega
  | brext hf hv h =>
    simp (disch := omega) only [if_neg, if_pos]
    congr 1 <;> omega
  | bref hm hq h =>
    simp (disch := omega) only [if_neg, if_pos]
    congr 1 <;> omega

/-- R80's map is complete: its ranges cover the 256 values. -/
theorem denotes_classify (b : Byte) (tail : List Byte) : Denotes b tail (classify b tail) := by
  have hlt : b.toNat < 256 := b.isLt
  suffices h : ∃ i, Denotes b tail i by
    obtain ⟨i, hi⟩ := h
    rwa [hi.classify_eq]
  obtain h | h | h | h | h | h | h | h | h :
      b.toNat ≤ 0x7F ∨ (0x80 ≤ b.toNat ∧ b.toNat ≤ 0x8F) ∨ b.toNat = 0x90 ∨ b.toNat = 0x91 ∨
      (0x92 ≤ b.toNat ∧ b.toNat ≤ 0x93) ∨ (0x94 ≤ b.toNat ∧ b.toNat ≤ 0x97) ∨
      (0x98 ≤ b.toNat ∧ b.toNat ≤ 0x9F) ∨ (0xA0 ≤ b.toNat ∧ b.toNat ≤ 0xBF) ∨ 0xC0 ≤ b.toNat := by omega
  · exact ⟨_, .lit h⟩
  · exact ⟨_, .zrun (c := b.toNat - 0x80 + 2) (by omega) (by omega) (by omega)⟩
  · exact ⟨_, .stop h⟩
  · exact ⟨_, .reserved91 h⟩
  · exact ⟨_, .reserved92 (x := b.toNat - 0x92) (by omega) (by omega)⟩
  · exact ⟨_, .reserved94 (x := b.toNat - 0x94) (by omega) (by omega)⟩
  · exact ⟨_, .reserved98 (x := b.toNat - 0x98) (by omega) (by omega)⟩
  · exact ⟨_, .brext (f := (b.toNat - 0xA0) / 16) (v := (b.toNat - 0xA0) % 16) (by omega) (by omega) (by omega)⟩
  · exact ⟨_, .bref (m := (b.toNat - 0xC0) / 8) (q := (b.toNat - 0xC0) % 8) (by omega) (by omega) (by omega)⟩

theorem denotes_of_classify (h : classify b tail = i) : Denotes b tail i := h ▸ denotes_classify b tail

end

/-! ### The length of an opcode (R71) -/

theorem operandBytes_eq (b : Byte) : operandBytes b = if b.toNat ≤ 0x7F then b.toNat else 0 := by
  have hlt : b.toNat < 256 := b.isLt
  simp only [operandBytes, bits_eq, Nat.reduceSub, Nat.reduceAdd, Nat.reducePow, Nat.div_one]
  split_ifs <;> omega

theorem operandBytes_of_high {b : Byte} (h : 0x80 ≤ b.toNat) : operandBytes b = 0 := by
  rw [operandBytes_eq, if_neg (by omega)]

theorem operandBytes_of_low {b : Byte} (h : b.toNat ≤ 0x7F) : operandBytes b = b.toNat := by
  rw [operandBytes_eq, if_pos h]

/-! ### The decoder -/

theorem decode_whole {b : Byte} {tail : List Byte} (h : operandBytes b ≤ tail.length) :
    decode (b :: tail) = .ok (classify b tail, tail.drop (operandBytes b)) :=
  if_neg (Nat.not_lt.2 h)

theorem decode_short {b : Byte} {tail : List Byte} (h : tail.length < operandBytes b) :
    decode (b :: tail) = .error (.truncated (classify b tail)) :=
  if_pos h

/-- What the decoder reads: a leading byte with all its argument bytes after it, and R80's opcode for them. -/
theorem denotes_of_decode {bs rest : List Byte} {i : Instr} (h : decode bs = .ok (i, rest)) :
    ∃ b tail, bs = b :: tail ∧ operandBytes b ≤ tail.length ∧ Denotes b tail i ∧ rest = tail.drop (operandBytes b) := by
  cases bs with
  | nil => cases h
  | cons b tail =>
    by_cases hshort : tail.length < operandBytes b
    · cases (decode_short hshort).symm.trans h
    · have hwhole := Nat.not_lt.1 hshort
      cases (decode_whole hwhole).symm.trans h
      exact ⟨b, tail, rfl, hwhole, denotes_classify b tail, rfl⟩

/-! ### The encoder (R82) -/

theorem encode_zrun {c : Nat} (hmax : c ≤ 17) : encode (.zrun c) = [BitVec.ofNat 8 (0x80 + (c - 2))] := by
  rw [encode, or_eq_add 4 (by decide) (by omega)]

theorem encode_reserved92 {x : Nat} (hx : x ≤ 1) : encode (.reserved92 x) = [BitVec.ofNat 8 (0x92 + x)] := by
  rw [encode, or_eq_add 1 (by decide) (by omega)]

theorem encode_reserved94 {x : Nat} (hx : x ≤ 3) : encode (.reserved94 x) = [BitVec.ofNat 8 (0x94 + x)] := by
  rw [encode, or_eq_add 2 (by decide) (by omega)]

theorem encode_reserved98 {x : Nat} (hx : x ≤ 7) : encode (.reserved98 x) = [BitVec.ofNat 8 (0x98 + x)] := by
  rw [encode, or_eq_add 3 (by decide) (by omega)]

theorem encode_brext {f v : Nat} (hf : f ≤ 1) (hv : v ≤ 15) :
    encode (.brext f v) = [BitVec.ofNat 8 (0xA0 + 16 * f + v)] := by
  have hflag : 0xA0 ||| f <<< 4 = 0xA0 + 16 * f := by
    rw [Nat.shiftLeft_eq, or_eq_add 5 (by decide) (by omega), Nat.mul_comm]
  rw [encode, hflag, or_eq_add 4 (by omega) (by omega)]

theorem encode_bref {m q : Nat} (hm : m ≤ 7) (hq : q ≤ 7) :
    encode (.bref m q) = [BitVec.ofNat 8 (0xC0 + 8 * m + q)] := by
  have hfield : 0xC0 ||| m <<< 3 = 0xC0 + 8 * m := by
    rw [Nat.shiftLeft_eq, or_eq_add 6 (by decide) (by omega), Nat.mul_comm]
  rw [encode, hfield, or_eq_add 3 (by omega) (by omega)]

/-- An opcode is one leading byte and its argument bytes, and has its length from that byte. -/
theorem encode_length (i : Instr) : Laws.EncodeLength.Statement i :=
  match i with
  | .lit k ds => Laws.EncodeLength.lit k ds
  | .zrun c => Laws.EncodeLength.zrun c
  | .stop => Laws.EncodeLength.stop
  | .reserved91 => Laws.EncodeLength.reserved91
  | .reserved92 x => Laws.EncodeLength.reserved92 x
  | .reserved94 x => Laws.EncodeLength.reserved94 x
  | .reserved98 x => Laws.EncodeLength.reserved98 x
  | .brext f v => Laws.EncodeLength.brext f v
  | .bref m q => Laws.EncodeLength.bref m q

/-- The leading byte the encoder writes means its opcode, whatever follows the argument bytes. -/
theorem denotes_of_encode {i : Instr} {b : Byte} {ds : List Byte} (hi : i.wellFormed = true)
    (he : encode i = b :: ds) (rest : List Byte) : Denotes b (ds ++ rest) i := by
  cases i with
  | lit k data =>
    obtain ⟨hk, rfl⟩ : k ≤ 127 ∧ data.length = k := by simpa [Instr.wellFormed] using hi
    cases he
    have hb : (BitVec.ofNat 8 ds.length).toNat = ds.length := Nat.mod_eq_of_lt (by omega)
    have h := Denotes.lit (tail := ds ++ rest) (hb.trans_le hk)
    rwa [hb, List.take_left] at h
  | zrun c =>
    obtain ⟨hmin, hmax⟩ : 2 ≤ c ∧ c ≤ 17 := by simpa [Instr.wellFormed] using hi
    cases (encode_zrun hmax).symm.trans he
    exact .zrun hmin hmax (Nat.mod_eq_of_lt (by omega))
  | stop => cases he; exact .stop rfl
  | reserved91 => cases he; exact .reserved91 rfl
  | reserved92 x =>
    have hx : x ≤ 1 := by simpa [Instr.wellFormed] using hi
    cases (encode_reserved92 hx).symm.trans he
    exact .reserved92 hx (Nat.mod_eq_of_lt (by omega))
  | reserved94 x =>
    have hx : x ≤ 3 := by simpa [Instr.wellFormed] using hi
    cases (encode_reserved94 hx).symm.trans he
    exact .reserved94 hx (Nat.mod_eq_of_lt (by omega))
  | reserved98 x =>
    have hx : x ≤ 7 := by simpa [Instr.wellFormed] using hi
    cases (encode_reserved98 hx).symm.trans he
    exact .reserved98 hx (Nat.mod_eq_of_lt (by omega))
  | brext f v =>
    obtain ⟨hf, hv⟩ : f ≤ 1 ∧ v ≤ 15 := by simpa [Instr.wellFormed] using hi
    cases (encode_brext hf hv).symm.trans he
    exact .brext hf hv (Nat.mod_eq_of_lt (by omega))
  | bref m q =>
    obtain ⟨hm, hq⟩ : m ≤ 7 ∧ q ≤ 7 := by simpa [Instr.wellFormed] using hi
    cases (encode_bref hm hq).symm.trans he
    exact .bref hm hq (Nat.mod_eq_of_lt (by omega))

/-- Settles O1: the leading byte means the opcode, and its length leaves exactly what follows. -/
theorem decodeOfEncode : Obligations.DecodeOfEncode := by
  intro i rest hi
  obtain ⟨b, ds, he, hlen⟩ := encode_length i hi
  have hds : ds.length = operandBytes b := by simpa [he, opcodeLength, Nat.add_comm] using hlen
  rw [he, List.cons_append, decode_whole (by simp [hds]), (denotes_of_encode hi he rest).classify_eq,
    List.drop_left' hds]

/-- An opcode R80's map gives for a whole opcode's bytes is well-formed and has those bytes as its encoding. -/
theorem Denotes.wellFormed_and_encode_eq {b : Byte} {tail : List Byte} {i : Instr} (h : Denotes b tail i)
    (hwhole : operandBytes b ≤ tail.length) :
    i.wellFormed = true ∧ encode i = b :: tail.take (operandBytes b) := by
  have hb {n : Nat} (h : b.toNat = n) : BitVec.ofNat 8 n = b := by rw [← h, BitVec.ofNat_toNat, BitVec.setWidth_eq]
  cases h with
  | lit h =>
    rw [operandBytes_of_low h] at hwhole ⊢
    exact ⟨by simp [Instr.wellFormed, h, hwhole], by rw [encode, hb rfl]⟩
  | zrun hmin hmax h =>
    rw [operandBytes_of_high (by omega), encode_zrun hmax, hb h]
    exact ⟨by simp [Instr.wellFormed, hmin, hmax], rfl⟩
  | stop h =>
    rw [operandBytes_of_high (by omega), ← hb h]
    exact ⟨rfl, rfl⟩
  | reserved91 h =>
    rw [operandBytes_of_high (by omega), ← hb h]
    exact ⟨rfl, rfl⟩
  | reserved92 hx h =>
    rw [operandBytes_of_high (by omega), encode_reserved92 hx, hb h]
    exact ⟨by simp [Instr.wellFormed, hx], rfl⟩
  | reserved94 hx h =>
    rw [operandBytes_of_high (by omega), encode_reserved94 hx, hb h]
    exact ⟨by simp [Instr.wellFormed, hx], rfl⟩
  | reserved98 hx h =>
    rw [operandBytes_of_high (by omega), encode_reserved98 hx, hb h]
    exact ⟨by simp [Instr.wellFormed, hx], rfl⟩
  | brext hf hv h =>
    rw [operandBytes_of_high (by omega), encode_brext hf hv, hb h]
    exact ⟨by simp [Instr.wellFormed, hf, hv], rfl⟩
  | bref hm hq h =>
    rw [operandBytes_of_high (by omega), encode_bref hm hq, hb h]
    exact ⟨by simp [Instr.wellFormed, hm, hq], rfl⟩

/-- Settles O2, from R80's map and the encoder's bytes for it. -/
theorem decodedBytesAreTheEncoding : Obligations.DecodedBytesAreTheEncoding := by
  intro bs rest i h
  obtain ⟨b, tail, rfl, hwhole, hden, rfl⟩ := denotes_of_decode h
  obtain ⟨hwf, he⟩ := hden.wellFormed_and_encode_eq hwhole
  exact ⟨hwf, by rw [he, List.cons_append, List.take_append_drop]⟩

/-- Settles O6: the length is the leading byte and its argument bytes, and the decoder asks for exactly those. -/
theorem lengthFromLeadingByte : Obligations.LengthFromLeadingByte := by
  intro b tail
  have hlen : (if b.toNat ≤ 0x7F then 1 + b.toNat else 1) = operandBytes b + 1 := by
    rw [operandBytes_eq]; split_ifs <;> omega
  simp only [hlen]
  exact ⟨fun h => ⟨_, decode_whole (Nat.le_of_succ_le_succ h)⟩, fun h => ⟨_, decode_short (Nat.lt_of_succ_lt_succ h)⟩⟩

/-! ### Streams (R70) -/

theorem assemble_cons (i : Instr) (is : List Instr) : assemble (i :: is) = encode i ++ assemble is := List.flatMap_cons

theorem assemble_append (is js : List Instr) : assemble (is ++ js) = assemble is ++ assemble js :=
  List.flatMap_append

/-- One opcode read, then the rest of the stream. -/
theorem disassembleFrom_step {fuel : Nat} {bs rest : List Byte} {i : Instr} {is : List Instr}
    (hi : decode bs = .ok (i, rest)) (his : disassembleFrom fuel rest = .ok is) :
    disassembleFrom (fuel + 1) bs = .ok (i :: is) := by
  cases bs with
  | nil => cases hi
  | cons b tail => simp only [disassembleFrom, hi, his]

/-- The assembled stream splits into its opcodes, given fuel for each. -/
theorem disassembleFrom_assemble {is : List Instr} (hwf : ∀ i ∈ is, i.wellFormed = true) {fuel : Nat}
    (hfuel : is.length ≤ fuel) : disassembleFrom fuel (assemble is) = .ok is := by
  induction is generalizing fuel with
  | nil => exact disassembleFrom.eq_1 fuel
  | cons i is ih =>
    obtain ⟨hi, his⟩ := List.forall_mem_cons.1 hwf
    obtain ⟨fuel, rfl⟩ : ∃ f, fuel = f + 1 := Nat.exists_eq_add_one.2 (Nat.lt_of_lt_of_le (Nat.succ_pos _) hfuel)
    rw [assemble_cons]
    exact disassembleFrom_step (decodeOfEncode i _ hi) (ih his (Nat.le_of_succ_le_succ hfuel))

/-- Each opcode takes at least one byte. -/
theorem length_le_length_assemble (is : List Instr) : is.length ≤ (assemble is).length := by
  induction is with
  | nil => exact le_rfl
  | cons i is ih =>
    have hpos : 1 ≤ (encode i).length := by cases i <;> simp [encode]
    rw [assemble_cons, List.length_append, List.length_cons]
    omega

/-- Settles O8: the stream's length is enough fuel. -/
theorem streamSplitsIntoItsOpcodes : Obligations.StreamSplitsIntoItsOpcodes :=
  fun is hwf => disassembleFrom_assemble hwf (length_le_length_assemble is)

/-! ### The tables of the format -/

/-- Settles O3, by running the decoder on each word. -/
theorem specWordsDecode : Obligations.SpecWordsDecode := by
  unfold Obligations.SpecWordsDecode
  decide

/-- Settles O4: each clause is one case of R80's relation. -/
theorem leadingByteMap : Obligations.LeadingByteMap := by
  intro b rest
  have hlt : b.toNat < 256 := b.isLt
  refine ⟨fun h => (Denotes.lit h).classify_eq, fun h1 h2 => Denotes.classify_eq (.zrun ?_ ?_ ?_),
    fun h => (Denotes.stop h).classify_eq, fun h => (Denotes.reserved91 h).classify_eq,
    fun h1 h2 => Denotes.classify_eq (.reserved92 ?_ ?_), fun h1 h2 => Denotes.classify_eq (.reserved94 ?_ ?_),
    fun h1 h2 => Denotes.classify_eq (.reserved98 ?_ ?_), fun h1 h2 => Denotes.classify_eq (.brext ?_ ?_ ?_),
    fun h => Denotes.classify_eq (.bref ?_ ?_ ?_)⟩ <;> omega

/-- A row whose mask is a bit field has the bytes with its pattern in that field. -/
theorem matches_of_field {r : OpcodeRow} {b : Byte} (lo w : Nat) (hm : r.mask.toNat = (2 ^ w - 1) <<< lo)
    (hp : b.toNat / 2 ^ lo % 2 ^ w * 2 ^ lo = r.pattern.toNat) : r.matches b = true :=
  beq_iff_eq.2 (BitVec.eq_of_toNat_eq ((toNat_and_mask b lo w hm).trans hp))

/-- The row of the opcode a leading byte means has that byte. -/
theorem Denotes.matches_row {b : Byte} {tail : List Byte} {i : Instr} (h : Denotes b tail i) :
    ∃ r, opcodeTable[i.row]? = some r ∧ r.matches b = true := by
  have hlt : b.toNat < 256 := b.isLt
  cases h with
  | lit h => exact ⟨_, rfl, matches_of_field 7 1 rfl (show _ = 0x00 by omega)⟩
  | zrun hmin hmax h => exact ⟨_, rfl, matches_of_field 4 4 rfl (show _ = 0x80 by omega)⟩
  | stop h => exact ⟨_, rfl, matches_of_field 0 8 rfl (show _ = 0x90 by omega)⟩
  | reserved91 h => exact ⟨_, rfl, matches_of_field 0 8 rfl (show _ = 0x91 by omega)⟩
  | reserved92 hx h => exact ⟨_, rfl, matches_of_field 1 7 rfl (show _ = 0x92 by omega)⟩
  | reserved94 hx h => exact ⟨_, rfl, matches_of_field 2 6 rfl (show _ = 0x94 by omega)⟩
  | reserved98 hx h => exact ⟨_, rfl, matches_of_field 3 5 rfl (show _ = 0x98 by omega)⟩
  | brext hf hv h => exact ⟨_, rfl, matches_of_field 5 3 rfl (show _ = 0xA0 by omega)⟩
  | bref hm hq h => exact ⟨_, rfl, matches_of_field 6 2 rfl (show _ = 0xC0 by omega)⟩

/-- Two rows with a byte in common agree on the bits both masks look at. -/
theorem pattern_and_mask_of_matches {r r' : OpcodeRow} {b : Byte} (h : r.matches b = true) (h' : r'.matches b = true) :
    r.pattern &&& r'.mask = r'.pattern &&& r.mask := by
  obtain hp : b &&& r.mask = r.pattern := beq_iff_eq.1 h
  obtain hp' : b &&& r'.mask = r'.pattern := beq_iff_eq.1 h'
  rw [← hp, ← hp', BitVec.and_assoc, BitVec.and_assoc, BitVec.and_comm r.mask]

/-- Two rows of the opcode table differ on some bit both masks look at. -/
theorem opcodeTable_exclusive : ∀ n m : Fin opcodeTable.length,
    (opcodeTable.get n).pattern &&& (opcodeTable.get m).mask =
      (opcodeTable.get m).pattern &&& (opcodeTable.get n).mask → n = m := by decide

theorem row_unique {n m : Nat} {r r' : OpcodeRow} {b : Byte} (hn : opcodeTable[n]? = some r)
    (hm : opcodeTable[m]? = some r') (h : r.matches b = true) (h' : r'.matches b = true) : n = m := by
  obtain ⟨hnlt, rfl⟩ := List.getElem?_eq_some_iff.1 hn
  obtain ⟨hmlt, rfl⟩ := List.getElem?_eq_some_iff.1 hm
  exact congrArg Fin.val (opcodeTable_exclusive ⟨n, hnlt⟩ ⟨m, hmlt⟩ (pattern_and_mask_of_matches h h'))

/-- Settles O5: the classified opcode's row has the byte, and no byte is in two rows. -/
theorem exactlyOneTableRow : Obligations.ExactlyOneTableRow := by
  intro b rest n r hr
  obtain ⟨r', hr', hmatch⟩ := (denotes_classify b rest).matches_row
  refine ⟨fun h => row_unique hr hr' h hmatch, ?_⟩
  rintro rfl
  cases hr.symm.trans hr'
  exact hmatch

/-- Settles O7: each opcode's leading byte, and the bit fields of it that the rule's masks keep. -/
theorem operandAssembly : Obligations.OperandAssembly := by
  intro b rest s
  refine ⟨fun k ds hc => ?_, fun c hc => ?_, fun f v hc => ?_, fun m q hc => ?_⟩
  · have hmask := toNat_and_mask b (mask := 0x7F) 0 7 rfl
    cases denotes_of_classify hc with
    | lit h => omega
  · have hmask := toNat_and_mask b (mask := 0x0F) 0 4 rfl
    cases denotes_of_classify hc with
    | zrun hmin hmax h => omega
  · have hflag := toNat_and_mask b (mask := 0x10) 4 1 rfl
    have hnibble := toNat_and_mask b (mask := 0x0F) 0 4 rfl
    cases denotes_of_classify hc with
    | brext hf hv h =>
      simp only [extLength, extDistance, Nat.shiftLeft_eq, Nat.shiftRight_eq_div_pow]
      omega
  · have hlength := toNat_and_mask b (mask := 0x38) 3 3 rfl
    have hdistance := toNat_and_mask b (mask := 0x07) 0 3 rfl
    cases denotes_of_classify hc with
    | bref hm hq h =>
      simp only [refDistance, refLength, Nat.shiftRight_eq_div_pow]
      omega

end Sys2Proof.Machine
end

section
/-! PROOF. The pseudo-instructions (30_encoding.md R83) and the bytes the encoder emits for a match
(41_lz77_encoder.md R121 to R126); O9. -/

namespace Sys2Proof.Machine

/-! ### Literals -/

theorem literalRuns_wellFormed (fuel : Nat) (ds : List Byte) : ∀ i ∈ literalRuns fuel ds, i.wellFormed = true := by
  induction fuel generalizing ds with
  | zero => exact nofun
  | succ fuel ih =>
    rw [literalRuns]
    split
    · exact nofun
    · exact List.forall_mem_cons.2 ⟨by simp [Instr.wellFormed], ih _⟩

/-! ### The long form of a match, step by step (R123 to R126) -/

/-- Whether a BackrefExtend also takes EXT_N_STEP off the length N that is left (R123, R124): its operand f. -/
def lengthFlag (nr : Nat) : Nat := if nr < extNStep then 0 else 1

theorem lengthFlag_cases (nr : Nat) : nr < 8 ∧ lengthFlag nr = 0 ∨ 8 ≤ nr ∧ lengthFlag nr = 1 := by
  simp only [lengthFlag, extNStep]
  split <;> omega

theorem lengthFlag_le (nr : Nat) : lengthFlag nr ≤ 1 := by
  obtain ⟨-, h⟩ | ⟨-, h⟩ := lengthFlag_cases nr <;> omega

theorem fullDistanceOps_of_lt (fuel nr : Nat) {sr : Nat} (h : sr < 128) :
    fullDistanceOps fuel nr sr = ([], nr, sr) := by
  cases fuel with
  | zero => rfl
  | succ fuel => exact if_pos h

theorem fullDistanceOps_of_ge (fuel nr : Nat) {sr : Nat} (h : 128 ≤ sr) :
    fullDistanceOps (fuel + 1) nr sr =
      (.brext (lengthFlag nr) 15 :: (fullDistanceOps fuel (nr - lengthFlag nr * extNStep) (sr - extSFull)).1,
        (fullDistanceOps fuel (nr - lengthFlag nr * extNStep) (sr - extSFull)).2) :=
  if_neg (Nat.not_lt.2 h)

theorem fullDistanceBytes_of_lt (fuel nr : Nat) {sr : Nat} (h : sr < 128) :
    fullDistanceBytes fuel nr sr = ([], nr, sr) := by
  cases fuel with
  | zero => rfl
  | succ fuel => exact if_neg (Nat.not_le.2 h)

theorem fullDistanceBytes_of_ge (fuel nr : Nat) {sr : Nat} (h : 128 ≤ sr) :
    fullDistanceBytes (fuel + 1) nr sr =
      (encode (.brext (lengthFlag nr) 15) ++
          (fullDistanceBytes fuel (nr - lengthFlag nr * extNStep) (sr - extSFull)).1,
        (fullDistanceBytes fuel (nr - lengthFlag nr * extNStep) (sr - extSFull)).2) := by
  rw [fullDistanceBytes, if_pos h]
  obtain ⟨hn, hf⟩ | ⟨hn, hf⟩ := lengthFlag_cases nr
  · rw [if_neg (Nat.not_le.2 hn), hf]; rfl
  · rw [if_pos hn, hf]; rfl

/-- R123: the encoder's full distance bytes are those of the full distance opcodes, and leave the same N and S. -/
theorem fullDistanceBytes_eq (fuel nr sr : Nat) :
    fullDistanceBytes fuel nr sr = (assemble (fullDistanceOps fuel nr sr).1, (fullDistanceOps fuel nr sr).2) := by
  induction fuel generalizing nr sr with
  | zero => rfl
  | succ fuel ih =>
    by_cases h : sr < 128
    · rw [fullDistanceBytes_of_lt _ _ h, fullDistanceOps_of_lt _ _ h]; rfl
    · rw [fullDistanceBytes_of_ge _ _ (Nat.not_lt.1 h), fullDistanceOps_of_ge _ _ (Nat.not_lt.1 h), ih]; rfl

theorem fullDistanceOps_wellFormed (fuel nr sr : Nat) :
    ∀ i ∈ (fullDistanceOps fuel nr sr).1, i.wellFormed = true := by
  induction fuel generalizing nr sr with
  | zero => exact nofun
  | succ fuel ih =>
    by_cases h : sr < 128
    · rw [fullDistanceOps_of_lt _ _ h]; exact nofun
    · rw [fullDistanceOps_of_ge _ _ (Nat.not_lt.1 h)]
      exact List.forall_mem_cons.2 ⟨by simp [Instr.wellFormed, lengthFlag_le], ih _ _⟩

/-- The full distance opcodes leave less than 128 of S: each takes EXT_S_FULL, so S itself is enough fuel (R123). -/
theorem fullDistanceOps_left_lt {fuel nr sr : Nat} (hfuel : sr ≤ fuel) : (fullDistanceOps fuel nr sr).2.2 < 128 := by
  induction fuel generalizing nr sr with
  | zero => exact Nat.lt_of_le_of_lt hfuel (by decide)
  | succ fuel ih =>
    by_cases h : sr < 128
    · rw [fullDistanceOps_of_lt _ _ h]; exact h
    · rw [fullDistanceOps_of_ge _ _ (Nat.not_lt.1 h)]
      exact ih (by simp only [extSFull]; omega)

/-- R124: the final distance byte is the BackrefExtend of the S that is left, in units of EXT_S_UNIT. -/
theorem finalDistanceByte_eq (nr sr : Nat) :
    finalDistanceByte nr sr =
      (BitVec.ofNat 8 (0xA0 ||| (lengthFlag nr <<< 4) ||| (sr / 8)), nr - lengthFlag nr * extNStep, sr % 8) := by
  have hunits : sr >>> 3 = sr / 8 := Nat.shiftRight_eq_div_pow sr 3
  have hrest : sr &&& 7 = sr % 8 := Nat.and_two_pow_sub_one_eq_mod sr 3
  rw [finalDistanceByte, hunits, hrest]
  obtain ⟨hn, hf⟩ | ⟨hn, hf⟩ := lengthFlag_cases nr
  · rw [if_neg (Nat.not_le.2 hn), hf]; rfl
  · rw [if_pos hn, hf, Nat.or_right_comm]; rfl

/-- R125: a length filler per EXT_N_STEP of the N that is left. -/
theorem lengthFillers_eq {fuel nr : Nat} (hfuel : nr ≤ fuel) :
    lengthFillers fuel nr = (assemble (List.replicate (nr / 8) (.brext 1 0)), nr % 8) := by
  induction fuel generalizing nr with
  | zero => obtain rfl := Nat.le_zero.1 hfuel; rfl
  | succ fuel ih =>
    rw [lengthFillers]
    by_cases h : 8 ≤ nr
    · have hdiv : nr / 8 = (nr - 8) / 8 + 1 := by omega
      have hmod : nr % 8 = (nr - 8) % 8 := by omega
      rw [if_pos h, ih (by simp only [extNStep]; omega), hdiv, hmod]; rfl
    · rw [if_neg h, Nat.div_eq_of_lt (Nat.not_le.1 h), Nat.mod_eq_of_lt (Nat.not_le.1 h)]; rfl

/-! ### A match -/

/-- The chain of a match that has no one-byte form, for N and S (R123 to R126). -/
def longBackrefOps (n s : Nat) : List Instr :=
  let left := (fullDistanceOps s n s).2
  (fullDistanceOps s n s).1 ++ [.brext (lengthFlag left.1) (left.2 / 8)]
    ++ List.replicate ((left.1 - lengthFlag left.1 * extNStep) / extNStep) (.brext 1 0)
    ++ [.bref (left.1 % extNStep) (left.2 % 8)]

theorem backrefOps_eq (l d : Nat) :
    backrefOps l d =
      if l - 2 ≤ shortNMax ∧ d - l ≤ 7 then [.bref (l - 2) (d - l)] else longBackrefOps (l - 2) (d - l) := rfl

theorem longBackrefOps_wellFormed (n s : Nat) : ∀ i ∈ longBackrefOps n s, i.wellFormed = true := by
  have hs : (fullDistanceOps s n s).2.2 < 128 := fullDistanceOps_left_lt le_rfl
  intro i hi
  simp only [longBackrefOps, List.mem_append, List.mem_singleton, List.mem_replicate] at hi
  obtain ((hi | rfl) | ⟨-, rfl⟩) | rfl := hi
  · exact fullDistanceOps_wellFormed _ _ _ i hi
  · simp only [Instr.wellFormed, lengthFlag_le, decide_true, Bool.true_and, decide_eq_true_iff]
    omega
  · rfl
  · simp only [Instr.wellFormed, extNStep, Bool.and_eq_true, decide_eq_true_iff]
    omega

/-- R123 to R126: the chain's opcodes encode to the bytes the encoder emits, step by step. -/
theorem assemble_longBackrefOps (n s : Nat) : assemble (longBackrefOps n s) = longBackrefBytes n s := by
  have hrest (nr : Nat) : (nr - lengthFlag nr * extNStep) % 8 = nr % 8 := by
    obtain ⟨-, hf⟩ | ⟨hn, hf⟩ := lengthFlag_cases nr <;> simp only [extNStep] <;> omega
  simp only [longBackrefBytes, fullDistanceBytes_eq, finalDistanceByte_eq, lengthFillers_eq le_rfl, hrest,
    longBackrefOps, assemble_append]
  rfl

theorem backrefOps_wellFormed (l d : Nat) : ∀ i ∈ backrefOps l d, i.wellFormed = true := by
  rw [backrefOps_eq]
  split
  · next h => exact List.forall_mem_singleton.2 (by simpa [Instr.wellFormed] using h)
  · exact longBackrefOps_wellFormed _ _

/-- R121, R122: with N = L - 2 and S = d - L the encoder takes the one-byte form where the expansion does. -/
theorem assemble_backrefOps {l d : Nat} (hl : 2 ≤ l) (hd : l ≤ d) : assemble (backrefOps l d) = backrefBytes l d := by
  have hS : d - (l - 2) - 2 = d - l := by omega
  have hshort : d - (l - 2) ≤ shortSMax ↔ d - l ≤ 7 := by simp only [shortSMax]; omega
  simp only [backrefOps_eq, backrefBytes, hS, hshort]
  split
  · rfl
  · exact assemble_longBackrefOps _ _

/-- Settles O9: each expansion's opcodes are well-formed, and a match's chain follows the encoder byte by byte. -/
theorem pseudoExpansion : Obligations.PseudoExpansion := by
  refine ⟨fun p hp => ?_, fun l d => assemble_backrefOps⟩
  cases p with
  | literal ds => exact literalRuns_wellFormed _ ds
  | zeros c => exact List.forall_mem_singleton.2 hp
  | backref l d => exact backrefOps_wellFormed l d

end Sys2Proof.Machine
end

section
/-! PROOF. What a command's start makes of its header: the fault of a short one, and a context that depends on the two
address fields only (40_dictionary_builder.md R101 to R104, 60_exceptions.md R176); O32 and O34. -/

namespace Sys2Proof.Machine

/-- Settles O32: the fault of a short header is entered from the command's initial state. -/
theorem shortHeaderFaults : Obligations.ShortHeaderFaults := by
  rintro s c rest ⟨hp, hq⟩ hd hh
  exact ⟨_, (step_issued hp hq).trans (startCommand_short _ hd hh), rfl, rfl, rfl, rfl, rfl, rfl⟩

theorem take_drop_congr {bs bs' : List Byte} {base n : Nat}
    (h : ∀ k, base ≤ k → k < base + n → bs[k]? = bs'[k]?) : (bs.drop base).take n = (bs'.drop base).take n := by
  refine List.ext_getElem? fun k => ?_
  simp only [List.getElem?_take, List.getElem?_drop]
  split
  · exact h _ (by omega) (by omega)
  · rfl

/-- The context of a header depends on its bytes [8, 40) only (R104). -/
theorem contextOf_congr {hdr hdr' : List Byte} (h : ∀ k, 8 ≤ k → k < 40 → hdr[k]? = hdr'[k]?) :
    contextOf hdr = contextOf hdr' := by
  have hsrc : (hdr.drop 8).take 16 = (hdr'.drop 8).take 16 := take_drop_congr fun k h1 h2 => h k (by omega) (by omega)
  have hdst : (hdr.drop 24).take 16 = (hdr'.drop 24).take 16 := take_drop_congr fun k h1 h2 => h k (by omega) (by omega)
  rw [contextOf, contextOf, hsrc, hdst]

/-- A command that starts has disjoint buffers, so under a header of at least 40 bytes it begins with its context. -/
theorem State.Issues.step_begins {s t : State} {c : Command} {rest : List Command} (h : s.Issues c rest)
    (hh : 40 ≤ c.header.length) (ht : step s = .next t) : t = (State.built c { s with pending := rest }).begin c := by
  by_cases hd : c.Disjoint
  · obtain ⟨hp, hq⟩ := h
    rw [step_issued hp hq, startCommand_ok _ hd hh] at ht
    exact (Host.Outcome.next.inj ht).symm
  · cases (step_overlapping h hd).symm.trans ht

/-- Settles O34: each BUILD begins, and so ends, with the context of its header and STATUS = 0. -/
theorem buildDependsOnAddressesOnly : Obligations.BuildDependsOnAddressesOnly := by
  intro s s' t t' h h' d d' rest rest' hs hs' hh hh' hagree ht ht'
  obtain rfl := hs.step_begins hh ht
  obtain rfl := hs'.step_begins hh' ht'
  exact ⟨congrArg Result.context (contextOf_congr hagree), rfl⟩

end Sys2Proof.Machine
end

section
/-! PROOF. A match search finds a match (41_lz77_encoder.md R113 to R118), and a match's chain of opcodes adds up to its
length and distance (R121 to R126). -/

namespace Sys2Proof.Machine

/-! ### The candidates -/

/-- From a candidate below p − 1 the extension stays a match: its first two bytes agree, and each byte added does. -/
theorem validMatch_of_isCandidate {win pay : List Byte} {i p j : Nat} (hj : j < p - 1)
    (h : isCandidate win pay i j = true) : ValidMatch win pay i p j (matchLength win pay i p j) := by
  obtain ⟨⟨htwo, h0⟩, h1⟩ : (i + 1 < pay.length ∧ win[j]? = pay[i]?) ∧ win[j + 1]? = pay[i + 1]? := by
    simpa only [isCandidate, Bool.and_eq_true, decide_eq_true_eq, beq_iff_eq] using h
  obtain ⟨hmin, -, hagree, -⟩ : 2 ≤ matchLength win pay i p j ∧ _ := extendMatch_spec win pay i p j pay.length matchMin
  refine ⟨hmin, ?_, matchLength_le p h, fun t ht => ?_⟩
  · by_contra hgt
    obtain ⟨-, hlast, -⟩ := hagree (p - j) (show 2 ≤ _ by omega) (by unfold matchLength at hgt; omega)
    omega
  · match t with
    | 0 => exact h0
    | 1 => exact h1
    | t + 2 => exact (hagree (t + 2) (Nat.le_add_left 2 t) ht).2.2

/-- The search finds no match, or a match (R116). -/
theorem longestMatch_cases (win pay : List Byte) (i p : Nat) :
    longestMatch win pay i p = (0, 0) ∨
      ValidMatch win pay i p (longestMatch win pay i p).2 (longestMatch win pay i p).1 := by
  refine List.foldlRecOn (motive := fun best => best = (0, 0) ∨ ValidMatch win pay i p best.2 best.1)
    (List.range (p - 1)) (considerStart win pay i p) (.inl rfl) fun best hbest j hj => ?_
  unfold considerStart
  split
  · next hc =>
    exact .inr (validMatch_of_isCandidate (List.mem_range.1 hj) (Bool.and_eq_true_iff.1 hc).1)
  · exact hbest

theorem validMatch_of_longestMatch_pos {win pay : List Byte} {i p : Nat} (h : 0 < (longestMatch win pay i p).1) :
    ValidMatch win pay i p (longestMatch win pay i p).2 (longestMatch win pay i p).1 :=
  (longestMatch_cases win pay i p).resolve_left fun h0 => by simp [h0] at h

/-- ZeroRunLength counts at most 17 payload bytes, all of them zero (R113). -/
theorem zeroRunLength_spec (pay : List Byte) (i : Nat) :
    zeroRunLength pay i ≤ 17 ∧ ∀ k, k < zeroRunLength pay i → pay[i + k]? = some 0 := by
  obtain ⟨-, hmax, hzero, -⟩ := zeroRunFrom_spec pay i zrunMax 0
  exact ⟨hmax, fun k => hzero k (Nat.zero_le k)⟩

/-! ### The selection (R118) -/

theorem bestL_pos_of_select {l z d : Nat} (h : select l z d = .backref) : 0 < l := by
  unfold select at h
  split_ifs at h with hmatch
  exact Nat.zero_lt_of_lt hmatch.1

theorem two_le_of_select {l z d : Nat} (h : select l z d = .zeroRun) : 2 ≤ z := by
  unfold select at h
  split_ifs at h with _ hz
  exact hz

/-! ### The chain of a match -/

/-- A chain of BackrefExtend opcodes, as the operands of each. -/
def chainOps (chain : List (Nat × Nat)) : List Instr := chain.map fun e => .brext e.1 e.2

theorem chainLength_append (c c' : List (Nat × Nat)) : chainLength (c ++ c') = chainLength c + chainLength c' := by
  induction c with
  | nil => exact (Nat.zero_add _).symm
  | cons e c ih => simp only [List.cons_append, chainLength, ih, Nat.add_assoc]

theorem chainDistance_append (c c' : List (Nat × Nat)) :
    chainDistance (c ++ c') = chainDistance c + chainDistance c' := by
  induction c with
  | nil => exact (Nat.zero_add _).symm
  | cons e c ih => simp only [List.cons_append, chainDistance, ih, Nat.add_assoc]

/-- R125: the length fillers add EXT_N_STEP each, and no distance. -/
theorem chain_replicate (n : Nat) :
    chainLength (List.replicate n (1, 0)) = 8 * n ∧ chainDistance (List.replicate n (1, 0)) = 0 := by
  induction n with
  | zero => exact ⟨rfl, rfl⟩
  | succ n ih =>
    obtain ⟨hlength, hdistance⟩ := ih
    simp only [List.replicate_succ, chainLength, chainDistance, hlength, hdistance, and_true]
    omega

/-- R123: the full distance opcodes take off N and S what the decoder adds for them. -/
theorem fullDistanceOps_eq_chainOps (fuel nr sr : Nat) :
    ∃ chain, (fullDistanceOps fuel nr sr).1 = chainOps chain ∧
      chainLength chain + (fullDistanceOps fuel nr sr).2.1 = nr ∧
      chainDistance chain + (fullDistanceOps fuel nr sr).2.2 = sr := by
  induction fuel generalizing nr sr with
  | zero => exact ⟨[], rfl, Nat.zero_add _, Nat.zero_add _⟩
  | succ fuel ih =>
    by_cases h : sr < 128
    · rw [fullDistanceOps_of_lt _ _ h]
      exact ⟨[], rfl, Nat.zero_add _, Nat.zero_add _⟩
    · obtain ⟨chain, hops, hlength, hdistance⟩ := ih (nr - lengthFlag nr * extNStep) (sr - extSFull)
      rw [fullDistanceOps_of_ge _ _ (Nat.not_lt.1 h)]
      refine ⟨(lengthFlag nr, 15) :: chain, by rw [hops]; rfl, ?_, ?_⟩
      · simp only [chainLength, extNStep] at hlength ⊢
        obtain ⟨-, hf⟩ | ⟨hn, hf⟩ := lengthFlag_cases nr <;> rw [hf] at hlength ⊢ <;> omega
      · simp only [chainDistance, extSFull] at hdistance ⊢
        omega

/-- R121 to R126: the opcodes of a match are a chain and one Backref, whose lengths and distances add up to its own. -/
theorem backrefOps_eq_chainOps {l d : Nat} (hl : 2 ≤ l) (hd : l ≤ d) :
    ∃ chain m q, backrefOps l d = chainOps chain ++ [.bref m q] ∧ chainLength chain + m + 2 = l ∧
      q + chainDistance chain + l = d := by
  rw [backrefOps_eq]
  split
  · exact ⟨[], l - 2, d - l, rfl, by simp only [chainLength]; omega, by simp only [chainDistance]; omega⟩
  · obtain ⟨chain, hops, hlength, hdistance⟩ := fullDistanceOps_eq_chainOps (d - l) (l - 2) (d - l)
    simp only [longBackrefOps]
    generalize fullDistanceOps (d - l) (l - 2) (d - l) = full at hops hlength hdistance ⊢
    obtain ⟨hfill, hfill0⟩ := chain_replicate ((full.2.1 - lengthFlag full.2.1 * extNStep) / extNStep)
    refine ⟨chain ++ [(lengthFlag full.2.1, full.2.2 / 8)]
      ++ List.replicate ((full.2.1 - lengthFlag full.2.1 * extNStep) / extNStep) (1, 0), _, _,
      by simp only [chainOps, List.map_append, List.map_replicate, hops]; rfl, ?_, ?_⟩
    · simp only [chainLength_append, hfill, chainLength, extNStep]
      obtain ⟨-, hf⟩ | ⟨hn, hf⟩ := lengthFlag_cases full.2.1 <;> rw [hf] <;> omega
    · simp only [chainDistance_append, hfill0, chainDistance]
      omega

end Sys2Proof.Machine
end

section
/-! PROOF. What a stream of COMPRESS stands for: every pass appends an emission that rebuilds the payload bytes it
consumes (41_lz77_encoder.md R112, R119 to R128), so the stream it returns rebuilds the payload. -/

namespace Sys2Proof.Machine

/-! ### Streams that rebuild an output -/

/-- A stream of the encoder's emissions, and what OUT holds after it where it holds ctx before it: literal bytes (R119),
zero bytes (R120), or a copy of l bytes from distance d (R121). -/
inductive Rebuilds (ctx : List Byte) : List Byte → List Byte → Prop
  | nil : Rebuilds ctx [] ctx
  | literal {str out ds : List Byte} (before : Rebuilds ctx str out) (hmin : 1 ≤ ds.length) (hmax : ds.length ≤ 127) :
    Rebuilds ctx (str ++ encode (.lit ds.length ds)) (out ++ ds)
  | zeros {str out : List Byte} {c : Nat} (before : Rebuilds ctx str out) (hmin : 2 ≤ c) (hmax : c ≤ 17) :
    Rebuilds ctx (str ++ encode (.zrun c)) (out ++ List.replicate c 0)
  | backref {str out : List Byte} {l d : Nat} (before : Rebuilds ctx str out) (hmin : 2 ≤ l) (hle : l ≤ d)
    (hd : d ≤ out.length) :
    Rebuilds ctx (str ++ assemble (backrefOps l d)) (out ++ (out.drop (out.length - d)).take l)

/-- A stream that rebuilds out and ends with the LiteralRun whose count byte stands at hdr: the run can still grow. -/
def EndsWithRun (ctx str out : List Byte) (hdr : Nat) : Prop :=
  ∃ str' out' ds, Rebuilds ctx str' out' ∧ 1 ≤ ds.length ∧ ds.length ≤ 127 ∧
    str = str' ++ encode (.lit ds.length ds) ∧ out = out' ++ ds ∧ hdr = str'.length

theorem EndsWithRun.rebuilds {ctx str out : List Byte} {hdr : Nat} (h : EndsWithRun ctx str out hdr) :
    Rebuilds ctx str out := by
  obtain ⟨str', out', ds, hbefore, hmin, hmax, rfl, rfl, -⟩ := h
  exact hbefore.literal hmin hmax

/-- A literal that starts a run (R119). -/
theorem Rebuilds.startRun {ctx str out : List Byte} (h : Rebuilds ctx str out) (x : Byte) :
    EndsWithRun ctx (str ++ [1, x]) (out ++ [x]) str.length :=
  ⟨str, out, [x], h, le_rfl, by simp, rfl, rfl, rfl⟩

/-- A literal that extends a run: the count byte, rewritten in place, is again the run's (R119). -/
theorem EndsWithRun.extend {ctx str out : List Byte} {hdr : Nat} (h : EndsWithRun ctx str out hdr) {c : Byte}
    (hget : str[hdr]? = some c) (hc : c ≠ 127) (x : Byte) :
    EndsWithRun ctx (str.set hdr (c + 1) ++ [x]) (out ++ [x]) hdr := by
  obtain ⟨str', out', ds, hbefore, hmin, hmax, rfl, rfl, rfl⟩ := h
  obtain rfl : BitVec.ofNat 8 ds.length = c := by simpa [encode] using hget
  have hne : ds.length ≠ 127 := fun h => hc (by rw [h]; rfl)
  refine ⟨str', out', ds ++ [x], hbefore, by simp, ?_, ?_, List.append_assoc .., rfl⟩
  · rw [List.length_append, List.length_singleton]
    omega
  · simp [encode, BitVec.ofNat_add]

/-! ### The encoder's stream -/

/-- STR_OUT rebuilds out from CTX, and the open run can grow. -/
structure StreamRebuilds (s : State) (out : List Byte) : Prop where
  stream : Rebuilds s.ctx s.strOut out
  openRun : s.litActive = true → EndsWithRun s.ctx s.strOut out s.litHdr

/-- What EmitLiteral does to an exact stream where it completes: extend the open run, or start a run. -/
theorem emitLiteral_eq_ok {x : Byte} {s t : State} (hs : StreamInv s) (h : emitLiteral x s = .ok t) :
    (∃ c, s.Extends c ∧ t = s.setDest .strOut (s.strOut.set s.litHdr (c + 1) ++ [x])) ∨
      t = s.openLiteralRun.setDest .strOut (s.strOut ++ [1, x]) := by
  rcases extends_or_startsRun hs.literalRun with ⟨c, hc⟩ | hstart
  · by_cases hfits : Fits s.caps.maxStreamOut (s.olen + 1)
    · exact .inl ⟨c, hc, Except.ok.inj (h.symm.trans (emitLiteral_extends x c s hc hfits))⟩
    · cases (emitLiteral_error x s (.inl ⟨c, hc, hfits⟩)).symm.trans h
  · by_cases hfits : Fits s.caps.maxStreamOut (s.olen + 2)
    · exact .inr (Except.ok.inj (h.symm.trans (emitLiteral_starts x s hstart hfits)))
    · cases (emitLiteral_error x s (.inr ⟨hstart, hfits⟩)).symm.trans h

section
variable {s t : State} {out : List Byte}

theorem StreamRebuilds.emitLiteral {x : Byte} (hs : StreamRebuilds s out) (hinv : StreamInv s)
    (h : emitLiteral x s = .ok t) : StreamRebuilds t (out ++ [x]) := by
  suffices hrun : EndsWithRun t.ctx t.strOut (out ++ [x]) t.litHdr from ⟨hrun.rebuilds, fun _ => hrun⟩
  rcases emitLiteral_eq_ok hinv h with ⟨c, ⟨hactive, hget, hc⟩, rfl⟩ | rfl
  · exact (hs.openRun hactive).extend hget hc x
  · exact hs.stream.startRun x

theorem StreamRebuilds.emitZeroRun {z : Nat} (hs : StreamRebuilds s out) (hmin : 2 ≤ z) (hmax : z ≤ 17)
    (h : emitZeroRun z s = .ok t) : StreamRebuilds t (out ++ List.replicate z 0) := by
  obtain ⟨u, hu, h⟩ := bind_eq_ok h
  obtain rfl := emit_eq_ok hu
  cases h
  exact ⟨hs.stream.zeros hmin hmax, nofun⟩

theorem StreamRebuilds.emitBackref {l d : Nat} (hs : StreamRebuilds s out) (hmin : 2 ≤ l) (hle : l ≤ d)
    (hd : d ≤ out.length) (h : emitBackref l d s = .ok t) :
    StreamRebuilds t (out ++ (out.drop (out.length - d)).take l) := by
  obtain ⟨u, hu, h⟩ := bind_eq_ok h
  obtain rfl := emitAll_eq_ok hu
  cases h
  refine ⟨?_, nofun⟩
  simpa [assemble_backrefOps hmin hle] using hs.stream.backref hmin hle hd

/-- Advance moves I only. -/
theorem StreamRebuilds.consume (hs : StreamRebuilds s out) (n : Nat) : StreamRebuilds (s.consume n) out :=
  ⟨hs.stream, hs.openRun⟩

end

/-! ### The payload bytes a pass consumes -/

/-- The zero bytes of a run are the payload's next bytes (R113). -/
theorem take_add_of_zeros {pay : List Byte} {i z : Nat} (h : ∀ k, k < z → pay[i + k]? = some 0) :
    pay.take (i + z) = pay.take i ++ List.replicate z 0 := by
  rw [List.take_add]
  congr 1
  refine List.ext_getElem? fun k => ?_
  rw [List.getElem?_take, List.getElem?_drop, List.getElem?_replicate]
  split
  · next hk => exact h k hk
  · rfl

/-- The bytes of a match, copied from what is rebuilt already, are the payload's next bytes (R114, R115). -/
theorem take_add_of_validMatch {ctx pay : List Byte} {i p j l : Nat} (h : ValidMatch (ctx ++ pay) pay i p j l)
    (hp : p = (ctx ++ pay.take i).length) :
    ctx ++ pay.take (i + l) = (ctx ++ pay.take i) ++ ((ctx ++ pay.take i).drop j).take l := by
  obtain ⟨-, hjp, hend, hagree⟩ := h
  have hwin : ctx ++ pay.take i = (ctx ++ pay).take p := by
    rw [hp, List.length_append, List.length_take, Nat.min_eq_left (by omega), List.take_length_add_append]
  rw [List.take_add, ← List.append_assoc, hwin]
  congr 1
  refine List.ext_getElem? fun t => ?_
  simp only [List.getElem?_take, List.getElem?_drop]
  split
  · next ht => rw [if_pos (by omega), hagree t ht]
  · rfl

theorem emitted_of_emitBackref {l d : Nat} {s t : State} (hs : StreamInv s) (h : emitBackref l d s = .ok t) :
    Emitted s t := by
  obtain ⟨u, hu, h⟩ := bind_eq_ok h
  cases h
  exact emitted_of_emitAll hs hu

theorem emitted_of_emitZeroRun {z : Nat} {s t : State} (hs : StreamInv s) (h : emitZeroRun z s = .ok t) :
    Emitted s t := by
  obtain ⟨u, hu, h⟩ := bind_eq_ok h
  cases h
  exact emitted_of_emitAll hs ((emitAll_singleton _ s).trans hu)

/-! ### A pass, and the loop -/

/-- What COMPRESS has emitted so far rebuilds the payload bytes it has consumed so far. -/
def State.Rebuilt (s : State) : Prop := StreamRebuilds s (s.ctx ++ s.payIn.take s.i)

/-- A match found below the window position p = 48 + I is copied from what the decoder has rebuilt by then (R117). -/
theorem emitBackref_rebuilds {s t : State} (hs : s.EncodingInv) (hr : s.Rebuilt)
    (hmatch : ValidMatch s.win s.payIn s.i s.pos s.bestJ s.bestL)
    (h : emitBackref s.bestL (s.pos - s.bestJ) s = .ok t) :
    StreamRebuilds t (s.ctx ++ s.payIn.take (s.i + s.bestL)) := by
  have hi : s.i ≤ s.payIn.length := hs.index
  have hlen : s.pos = (s.ctx ++ s.payIn.take s.i).length := by
    rw [hs.context, List.length_append, contextOf_length hs.header, List.length_take, Nat.min_eq_left hi, State.pos,
      Nat.add_comm]
  have hbytes := take_add_of_validMatch (hs.window ▸ hmatch) hlen
  obtain ⟨hmin, hbelow, -⟩ := hmatch
  have hsrc : (s.ctx ++ s.payIn.take s.i).length - (s.pos - s.bestJ) = s.bestJ := by omega
  have hemit := StreamRebuilds.emitBackref hr hmin (by omega) (by omega) h
  rwa [hsrc, ← hbytes] at hemit

/-- Each emission rebuilds the payload bytes that Advance then consumes (R128). -/
theorem emitChoice_rebuilds {c : Choice} {s t : State} (hs : s.EncodingInv) (hr : s.Rebuilt)
    (hmatch : c = .backref → ValidMatch s.win s.payIn s.i s.pos s.bestJ s.bestL)
    (hzero : c = .zeroRun → 2 ≤ s.z ∧ s.z ≤ 17 ∧ ∀ k, k < s.z → s.payIn[s.i + k]? = some 0)
    (h : emitChoice c s = .ok t) : StreamRebuilds t (s.ctx ++ s.payIn.take t.i) := by
  have hinv : StreamInv s := ⟨hs.literalRun, hs.capacity⟩
  cases c with
  | backref =>
    obtain ⟨u, hu, h⟩ := bind_eq_ok h
    have hi : u.i = s.i := (emitted_of_emitBackref hinv hu).index
    cases h
    rw [consume_i, hi]
    exact (emitBackref_rebuilds hs hr (hmatch rfl) hu).consume _
  | zeroRun =>
    obtain ⟨u, hu, h⟩ := bind_eq_ok h
    have hi : u.i = s.i := (emitted_of_emitZeroRun hinv hu).index
    obtain ⟨hmin, hmax, hbytes⟩ := hzero rfl
    cases h
    rw [consume_i, hi, take_add_of_zeros hbytes, ← List.append_assoc]
    exact (StreamRebuilds.emitZeroRun hr hmin hmax hu).consume _
  | literal =>
    obtain ⟨x, hx, h⟩ := bind_eq_ok h
    obtain ⟨u, hu, h⟩ := bind_eq_ok h
    have hi : u.i = s.i := (emitted_of_emitLiteral hinv hu).index
    have hget : s.payIn[s.i]? = some x := (memRead_ok_iff _ _ _ _).1 hx
    cases h
    rw [consume_i, hi, List.take_add_one, hget, Option.toList_some, ← List.append_assoc]
    exact (StreamRebuilds.emitLiteral hr hinv hu).consume _

/-- A pass rebuilds the payload bytes it consumes: what it selects is what its search found. -/
theorem encodeStep_rebuilt {s t : State} (hs : s.EncodingInv) (hr : s.Rebuilt) (h : encodeStep s = .ok t) :
    t.Rebuilt := by
  have hch := changedByEncoder_of_encodeStep h
  obtain ⟨-, hpay, -⟩ := hch.keepsInputs
  have hscan : (scan s).EncodingInv := { hs with }
  have hrscan : (scan s).Rebuilt := ⟨hr.stream, hr.openRun⟩
  obtain ⟨hmax, hzero⟩ := zeroRunLength_spec s.payIn s.i
  have hpass := emitChoice_rebuilds hscan hrscan (fun hc => validMatch_of_longestMatch_pos (bestL_pos_of_select hc))
    (fun hc => ⟨two_le_of_select hc, hmax, hzero⟩) h
  rwa [State.Rebuilt, hch.ctx, hpay]

/-- A core that is idle and whose host issues nothing stays as it is. -/
theorem eq_of_runSteps_of_done {k : Nat} {s t : State} (hrun : runSteps k s = .next t) (h : s.done) : t = s := by
  obtain ⟨hp, hq⟩ := h
  induction k with
  | zero => exact (Host.Outcome.next.inj hrun).symm
  | succ k ih => exact ih ((runSteps_succ k s s (step_waiting hp hq)).symm.trans hrun)

theorem ChangedByEncoder.pending {s t : State} (h : ChangedByEncoder s t) : t.pending = s.pending := by rw [h]

/-- From COMPRESS's loop: the stream the command ends with rebuilds the whole payload. -/
theorem runSteps_encoding_rebuilds {k : Nat} {s t : State} {str : List Byte} (hp : s.phase = .encoding)
    (hq : s.pending = []) (hs : s.EncodingInv) (hr : s.Rebuilt) (h : runSteps k s = .next t) (hdone : t.done)
    (hresult : t.result = .stream str) : Rebuilds s.ctx str (s.ctx ++ s.payIn) := by
  induction k generalizing s with
  | zero =>
    cases h
    cases hp.symm.trans hdone.1
  | succ k ih =>
    obtain ⟨u, hu, h⟩ := runSteps_succ_next h
    rw [step_encoding hp, runEncoder] at hu
    split at hu
    · rcases settle_next hu with hok | ⟨e, p, -, rfl⟩
      · have hch := changedByEncoder_of_encodeStep hok
        obtain ⟨hphase, -⟩ := hch.reports
        obtain ⟨-, hpay, -⟩ := hch.keepsInputs
        have hend := ih (hphase.trans hp) (hch.pending.trans hq) (encodeStep_encodingInv hs hok)
          (encodeStep_rebuilt hs hr hok) h
        rwa [hch.ctx, hpay] at hend
      · obtain rfl := eq_of_runSteps_of_done h ⟨rfl, hq⟩
        cases hresult
    · next hi =>
      cases hu
      obtain rfl := eq_of_runSteps_of_done h ⟨rfl, hq⟩
      cases hresult
      have hall : s.payIn.take s.i = s.payIn := List.take_of_length_le (Nat.le_of_not_lt hi)
      exact hall ▸ hr.stream

/-- At COMPRESS's start nothing is emitted and nothing consumed. -/
theorem begin_compress_rebuilt (h p : HostBuffer) (d : HostStorage) (s : State) :
    ((s.built (.compress h p d)).begin (.compress h p d)).Rebuilt := by
  refine ⟨?_, nofun⟩
  change Rebuilds (contextOf h.bytes) [] (contextOf h.bytes ++ [])
  rw [List.append_nil]
  exact .nil

/-- The stream a COMPRESS returns rebuilds its payload from the context of its header. -/
theorem compress_rebuilds {k : Nat} {s t : State} {h p : HostBuffer} {d : HostStorage} {str : List Byte}
    (hs : s.Issues (.compress h p d) []) (hrun : runSteps k s = .next t) (hdone : t.done)
    (hresult : t.result = .stream str) : Rebuilds (contextOf h.bytes) str (contextOf h.bytes ++ p.bytes) := by
  obtain ⟨hidle, hissued⟩ := hs
  cases k with
  | zero =>
    cases hrun
    cases hissued.symm.trans hdone.2
  | succ k =>
    obtain ⟨u, hu, hrun⟩ := runSteps_succ_next hrun
    rw [step_issued hidle hissued] at hu
    rcases startCommand_outcome hu with ⟨hh, rfl⟩ | rfl
    · exact runSteps_encoding_rebuilds rfl rfl (begin_compress_encodingInv _ hh)
        (begin_compress_rebuilt h p d _) hrun hdone hresult
    · obtain rfl := eq_of_runSteps_of_done hrun ⟨rfl, rfl⟩
      cases hresult

end Sys2Proof.Machine
end

section
/-! PROOF. DECOMPRESS rebuilds what a stream of the encoder's emissions stands for (42_lz77_decoder.md R141 to R148),
and so the round trip (41_lz77_encoder.md R132, 40_dictionary_builder.md R105, 70_reset_and_hazards.md R193); O52. -/

namespace Sys2Proof.Machine

/-! ### A stretch of the stream -/

/-- s where n more bytes of its stream have been executed and OUT has become out. -/
def State.decoded (out : List Byte) (n : Nat) (s : State) : State :=
  { s with out := out, cur := out.length, ip := s.ip + n }

theorem decoded_decoded (out out' : List Byte) (n n' : Nat) (s : State) :
    (s.decoded out n).decoded out' n' = s.decoded out' (n + n') := by
  simp only [State.decoded, Nat.add_assoc]

theorem decoded_eq_extend_advance {s : State} (hc : s.cur = s.out.length) (bs : List Byte) (n : Nat) :
    s.decoded (s.out ++ bs) n = (s.extend .out bs).advance n := by
  simp only [State.decoded, State.extend, State.setDest, State.advance, hc, List.length_append]

/-- The opcode whose bytes stand at IP is executed (R141). -/
theorem step_of_drop_eq_encode {s : State} {i : Instr} {rest : List Byte} (hp : s.phase = .decoding)
    (hi : i.wellFormed = true) (h : s.strIn.drop s.ip = encode i ++ rest) : step s = exec i s :=
  step_fetched hp (by simp only [fetch, h, decodeOfEncode i rest hi])

/-- After a stretch of the stream, what follows it stands at IP. -/
theorem drop_add_of_drop_eq {bs str rest : List Byte} {n : Nat} (h : bs.drop n = str ++ rest) :
    bs.drop (n + str.length) = rest := by
  rw [← List.drop_drop, h, List.drop_left]

theorem runSteps_trans {k k' : Nat} {s t u : State} (h : runSteps k s = .next t) (h' : runSteps k' t = .next u) :
    runSteps (k + k') s = .next u := by
  induction k generalizing s with
  | zero =>
    cases h
    rwa [Nat.zero_add]
  | succ k ih =>
    obtain ⟨v, hv, h⟩ := runSteps_succ_next h
    rw [Nat.add_right_comm, runSteps_succ _ _ _ hv, ih h]

/-! ### The chain of a match -/

/-- A chain of BackrefExtend opcodes and its Backref copy l bytes from distance d, where l and d are the sums of what
the accumulators hold and what the chain adds (R144, R145). -/
theorem runSteps_chainOps {chain : List (Nat × Nat)} {m q l d : Nat} {s : State} {rest : List Byte}
    (hp : s.phase = .decoding) (hc : s.cur = s.out.length)
    (hwf : ∀ i ∈ chainOps chain ++ [.bref m q], i.wellFormed = true)
    (hstr : s.strIn.drop s.ip = assemble (chainOps chain ++ [.bref m q]) ++ rest)
    (hl : s.na + (chainLength chain + m + 2) = l) (hd : s.sa + (q + chainDistance chain + l) = d)
    (hcur : d ≤ s.cur) (hroom : s.HasRoom l) :
    ∃ k, runSteps k s = .next (s.closeChain.decoded (s.out ++ (s.out.drop (s.out.length - d)).take l)
      (assemble (chainOps chain ++ [.bref m q])).length) := by
  induction chain generalizing s with
  | nil =>
    obtain rfl : refLength m s = l := by simpa [refLength, chainLength, Nat.add_assoc] using hl
    obtain rfl : refDistance m q s = d := by
      simp only [refDistance, chainDistance] at hd ⊢
      omega
    have hstep : step s = exec (.bref m q) s := step_of_drop_eq_encode hp (hwf _ (by simp)) hstr
    have hclosed := decoded_eq_extend_advance (s := s.closeChain) hc
      ((s.out.drop (s.out.length - refDistance m q s)).take (refLength m s)) 1
    rw [exec_bref_ok hc hcur hroom, hc] at hstep
    exact ⟨1, (runSteps_succ 0 s _ hstep).trans (congrArg Host.Outcome.next hclosed.symm)⟩
  | cons e chain ih =>
    obtain ⟨f, v⟩ := e
    obtain ⟨hi, hrest⟩ := List.forall_mem_cons.1 hwf
    have hcons : assemble (chainOps ((f, v) :: chain) ++ [.bref m q]) =
      encode (.brext f v) ++ assemble (chainOps chain ++ [.bref m q]) := assemble_cons _ _
    rw [hcons, List.append_assoc] at hstr
    have hstep := (step_of_drop_eq_encode hp hi hstr).trans (exec_brext f v s)
    obtain ⟨k, hk⟩ := ih (s := (s.extendChain (extLength f) (extDistance v)).advance 1) hp hc hrest
      (drop_add_of_drop_eq hstr)
      (by simp only [chainLength, extLength, Nat.shiftLeft_eq, advance_na, extendChain_na] at hl ⊢; omega)
      (by simp only [chainDistance, extDistance, Nat.shiftLeft_eq, advance_sa, extendChain_sa] at hd ⊢; omega)
      hcur hroom
    refine ⟨k + 1, (runSteps_succ k s _ hstep).trans (hk.trans ?_)⟩
    rw [hcons, List.length_append, ← decoded_decoded (s.out ++ (s.out.drop (s.out.length - d)).take l)]
    rfl

/-! ### One emission -/

/-- Where the stream goes on with str from s and the capacity admits out, the decoder executes str and leaves out. -/
def Decodes (s : State) (str out : List Byte) : Prop :=
  ∀ rest, s.strIn.drop s.ip = str ++ rest → Fits s.caps.maxPayloadOut (out.length - 48) →
    ∃ k, runSteps k s = .next (s.decoded out str.length)

theorem Decodes.append {s : State} {str str' out bs : List Byte} (h : Decodes s str out)
    (h' : Decodes (s.decoded out str.length) str' (out ++ bs)) : Decodes s (str ++ str') (out ++ bs) := by
  intro rest hstr hfits
  rw [List.append_assoc] at hstr
  have hfits' : Fits s.caps.maxPayloadOut (out.length - 48) := by
    rw [List.length_append] at hfits
    exact hfits.mono (by omega)
  obtain ⟨k, hk⟩ := h _ hstr hfits'
  obtain ⟨k', hk'⟩ := h' _ (drop_add_of_drop_eq hstr) hfits
  rw [decoded_decoded, ← List.length_append] at hk'
  exact ⟨k + k', runSteps_trans hk hk'⟩

/-- DECOMPRESS outside a chain, with the 48 context bytes in OUT. -/
structure BetweenEmissions (s : State) : Prop where
  phase : s.phase = .decoding
  cursor : s.cur = s.out.length
  context : 48 ≤ s.out.length
  length : s.na = 0
  distance : s.sa = 0
  chain : s.chainOpen = false

section
variable {s : State} (hs : BetweenEmissions s)
include hs

theorem BetweenEmissions.decoded {out : List Byte} (hout : 48 ≤ out.length) (n : Nat) :
    BetweenEmissions (s.decoded out n) :=
  { hs with cursor := rfl, context := hout }

theorem BetweenEmissions.closeChain : s.closeChain = s := by
  obtain ⟨-, -, -, hna, hsa, hopen⟩ := hs
  cases s
  cases hna
  cases hsa
  cases hopen
  rfl

theorem BetweenEmissions.hasRoom {bs : List Byte} {n : Nat} (hn : bs.length = n)
    (hfits : Fits s.caps.maxPayloadOut ((s.out ++ bs).length - 48)) : s.HasRoom n := by
  have hctx := hs.context
  rw [List.length_append, hn] at hfits
  rw [State.HasRoom, hs.cursor]
  exact hfits.mono (by omega)

theorem BetweenEmissions.decodes_nil : Decodes s [] s.out := by
  intro rest _ _
  have hsame := decoded_eq_extend_advance hs.cursor [] 0
  rw [extend_nil, List.append_nil] at hsame
  exact ⟨0, congrArg Host.Outcome.next hsame.symm⟩

theorem BetweenEmissions.decodes_literal {ds : List Byte} (hmax : ds.length ≤ 127) :
    Decodes s (encode (.lit ds.length ds)) (s.out ++ ds) := by
  intro rest hstr hfits
  have hdata : s.ip + 1 + ds.length ≤ s.slen := by
    have hlen := congrArg List.length hstr
    simp only [encode, List.length_drop, List.length_append, List.length_cons] at hlen
    simp only [State.slen]
    omega
  have hstep := step_of_drop_eq_encode hs.phase (by simp [Instr.wellFormed, hmax]) hstr
  rw [exec_lit_ok ds hdata (hs.hasRoom rfl hfits), Nat.add_comm 1] at hstep
  rw [decoded_eq_extend_advance hs.cursor]
  exact ⟨1, runSteps_succ 0 s _ hstep⟩

theorem BetweenEmissions.decodes_zeros {c : Nat} (hmin : 2 ≤ c) (hmax : c ≤ 17) :
    Decodes s (encode (.zrun c)) (s.out ++ List.replicate c 0) := by
  intro rest hstr hfits
  have hstep := step_of_drop_eq_encode hs.phase (by simp [Instr.wellFormed, hmin, hmax]) hstr
  rw [exec_zrun_ok (hs.hasRoom List.length_replicate hfits)] at hstep
  rw [decoded_eq_extend_advance hs.cursor]
  exact ⟨1, runSteps_succ 0 s _ hstep⟩

theorem BetweenEmissions.decodes_backref {l d : Nat} (hmin : 2 ≤ l) (hle : l ≤ d) (hd : d ≤ s.out.length) :
    Decodes s (assemble (backrefOps l d)) (s.out ++ (s.out.drop (s.out.length - d)).take l) := by
  intro rest hstr hfits
  have hwf := backrefOps_wellFormed l d
  obtain ⟨chain, m, q, hops, hlength, hdistance⟩ := backrefOps_eq_chainOps hmin hle
  rw [hops] at hwf hstr ⊢
  have hcopied : ((s.out.drop (s.out.length - d)).take l).length = l := by
    rw [List.length_take, List.length_drop]
    omega
  obtain ⟨k, hk⟩ := runSteps_chainOps hs.phase hs.cursor hwf hstr (by rw [hs.length, hlength, Nat.zero_add])
    (by rw [hs.distance, hdistance, Nat.zero_add]) (hs.cursor ▸ hd) (hs.hasRoom hcopied hfits)
  rw [hs.closeChain] at hk
  exact ⟨k, hk⟩

end

/-! ### A stream of emissions -/

/-- OUT only grows. -/
theorem Rebuilds.length_le {ctx str out : List Byte} (h : Rebuilds ctx str out) : ctx.length ≤ out.length := by
  induction h with
  | nil => exact le_rfl
  | literal | zeros | backref =>
    rw [List.length_append]
    omega

/-- The decoder rebuilds what a stream of emissions stands for, one emission after another. -/
theorem Rebuilds.decodes {s : State} {str out : List Byte} (h : Rebuilds s.out str out) (hs : BetweenEmissions s) :
    Decodes s str out := by
  have after {str out : List Byte} (h : Rebuilds s.out str out) : BetweenEmissions (s.decoded out str.length) :=
    hs.decoded (hs.context.trans h.length_le) str.length
  induction h with
  | nil => exact hs.decodes_nil
  | literal before _ hmax ih => exact ih.append ((after before).decodes_literal hmax)
  | zeros before hmin hmax ih => exact ih.append ((after before).decodes_zeros hmin hmax)
  | backref before hmin hle hd ih => exact ih.append ((after before).decodes_backref hmin hle hd)

/-! ### The round trip -/

theorem begin_decompress_betweenEmissions {h i : HostBuffer} {d : HostStorage} (s : State) (hh : 40 ≤ h.bytes.length) :
    BetweenEmissions ((s.built (.decompress h i d)).begin (.decompress h i d)) where
  phase := rfl
  cursor := (contextOf_length hh).symm
  context := (contextOf_length hh).ge
  length := rfl
  distance := rfl
  chain := rfl

/-- At the end of its stream, outside a chain, DECOMPRESS completes with its payload (R148). -/
theorem step_endOfStream_closed {s : State} (hp : s.phase = .decoding) (hend : s.strIn.drop s.ip = [])
    (hopen : s.chainOpen = false) : step s = .next (s.finish (.payload s.payOut) s.stopSeen) :=
  (step_endOfStream hp (fetch_of_drop_eq_nil hend)).trans (endOfStream_closed hopen)

/-- From DECOMPRESS's loop with only the context in OUT: where the rest of the stream rebuilds a payload, the command
ends with that payload and STATUS = 0. -/
theorem BetweenEmissions.ends_with_payload {s : State} {pay : List Byte} (hs : BetweenEmissions s)
    (hctx : s.out.length = 48) (hq : s.pending = []) (hstop : s.stopSeen = false)
    (hr : Rebuilds s.out (s.strIn.drop s.ip) (s.out ++ pay)) (hfits : Fits s.caps.maxPayloadOut pay.length) :
    ∃ k t, runSteps k s = .next t ∧ t.done ∧ t.result = .payload pay ∧ t.status = 0 := by
  have hrest := (List.append_nil (s.strIn.drop s.ip)).symm
  obtain ⟨k, hk⟩ := hr.decodes hs [] hrest (by rwa [List.length_append, hctx, Nat.add_sub_cancel_left])
  have hend := step_endOfStream_closed (s := s.decoded (s.out ++ pay) (s.strIn.drop s.ip).length) hs.phase
    (drop_add_of_drop_eq hrest) hs.chain
  exact ⟨_, _, runSteps_trans hk (runSteps_succ 0 _ _ hend), ⟨rfl, hq⟩,
    congrArg Result.payload (List.drop_left' hctx), congrArg (statusWord 0) hstop⟩

/-- A DECOMPRESS of a stream that rebuilds a payload ends with that payload and STATUS = 0. -/
theorem decompress_of_rebuilds {s : State} {h str : HostBuffer} {d : HostStorage} {pay : List Byte}
    (hs : s.Issues (.decompress h str d) []) (hd : (Command.decompress h str d).Disjoint) (hh : 40 ≤ h.bytes.length)
    (hr : Rebuilds (contextOf h.bytes) str.bytes (contextOf h.bytes ++ pay))
    (hfits : Fits s.caps.maxPayloadOut pay.length) :
    ∃ k t, runSteps k s = .next t ∧ t.done ∧ t.result = .payload pay ∧ t.status = 0 := by
  obtain ⟨hidle, hissued⟩ := hs
  have hstart := (step_issued hidle hissued).trans (startCommand_ok _ hd hh)
  have hloop := begin_decompress_betweenEmissions (i := str) (d := d) { s with pending := [] } hh
  obtain ⟨k, t, hk, hend⟩ := hloop.ends_with_payload (contextOf_length hh) rfl rfl hr hfits
  exact ⟨k + 1, t, (runSteps_succ k s _ hstart).trans hk, hend⟩

/-- Settles O52: the stream rebuilds the payload from the context, and the two headers have the same context. -/
theorem roundTrip : Obligations.RoundTrip := by
  intro s t u h h' p str d d' k hs hrun hdone hresult hu hd hh hagree hfits
  have hr := compress_rebuilds hs hrun hdone hresult
  rw [← contextOf_congr hagree] at hr
  exact decompress_of_rebuilds hu hd hh hr hfits

end Sys2Proof.Machine
end

section
/-! PROOF. The match search is exact and the selection follows its rule (41_lz77_encoder.md R113 to R118); O38, O39 and
O40. -/

namespace Sys2Proof.Machine

/-! ### The zero run (R113) -/

theorem getElem?_zeroRunLength_ne_zero {pay : List Byte} {i : Nat} (h : zeroRunLength pay i < 17) :
    pay[i + zeroRunLength pay i]? ≠ some 0 := by
  obtain ⟨-, -, -, hend⟩ := zeroRunFrom_spec pay i zrunMax 0
  exact hend.resolve_left (Nat.ne_of_lt h)

/-- Settles O38: the loop counts zero bytes only, and below its bound it ends at a byte that is not zero. -/
theorem zeroRunLengthIsMaximal : Obligations.ZeroRunLengthIsMaximal := by
  intro pay i
  obtain ⟨hmax, hzero⟩ := zeroRunLength_spec pay i
  exact ⟨hmax, hzero, getElem?_zeroRunLength_ne_zero⟩

/-! ### The longest match (R114 to R116) -/

section
variable {win pay : List Byte} {i p j l : Nat}

/-- Every match starts at a candidate the search considers (R114). -/
theorem isCandidate_of_validMatch (h : ValidMatch win pay i p j l) : isCandidate win pay i j = true := by
  obtain ⟨hmin, -, hend, hagree⟩ := h
  have h0 : win[j]? = pay[i]? := hagree 0 (by omega)
  have h1 : win[j + 1]? = pay[i + 1]? := hagree 1 (by omega)
  have htwo : i + 1 < pay.length := by omega
  simp only [isCandidate, htwo, h0, h1, decide_true, beq_self_eq_true, Bool.and_self]

/-- The extension loop finds the longest match from its start: a longer one would let it go on (R115). -/
theorem le_matchLength_of_validMatch (h : ValidMatch win pay i p j l) : l ≤ matchLength win pay i p j := by
  obtain ⟨-, hbelow, hend, hagree⟩ := h
  obtain ⟨-, -, -, hstop⟩ := extendMatch_spec win pay i p j pay.length matchMin
  refine Nat.le_of_not_lt fun hlt => ?_
  unfold matchLength at hlt
  rcases hstop with hbound | hstop
  · omega
  · exact hstop ⟨by omega, by omega, hagree _ hlt⟩

/-- No match that starts below n is longer than best, or as long and later. -/
def BestBelow (win pay : List Byte) (i p n : Nat) (best : Nat × Nat) : Prop :=
  ∀ j l, j < n → ValidMatch win pay i p j l → l < best.1 ∨ (l = best.1 ∧ j ≤ best.2)

/-- A later candidate replaces the best match when it is no shorter (R116). -/
theorem BestBelow.considerStart {n : Nat} {best : Nat × Nat} (h : BestBelow win pay i p n best) :
    BestBelow win pay i p (n + 1) (considerStart win pay i p best n) := by
  intro j l hj hmatch
  unfold Machine.considerStart
  rcases Nat.lt_succ_iff_lt_or_eq.1 hj with hj | rfl
  · have hbest := h j l hj hmatch
    split
    · next hc =>
      have hle : best.1 ≤ matchLength win pay i p n := of_decide_eq_true (Bool.and_eq_true_iff.1 hc).2
      show l < matchLength win pay i p n ∨ l = matchLength win pay i p n ∧ j ≤ n
      omega
    · exact hbest
  · have hle := le_matchLength_of_validMatch hmatch
    split
    · show l < matchLength win pay i p j ∨ l = matchLength win pay i p j ∧ j ≤ j
      omega
    · next hc =>
      have hshorter : ¬ best.1 ≤ matchLength win pay i p j := by
        simpa only [isCandidate_of_validMatch hmatch, Bool.true_and, decide_eq_true_eq] using hc
      omega

theorem bestBelow_foldl (win pay : List Byte) (i p n : Nat) :
    BestBelow win pay i p n ((List.range n).foldl (considerStart win pay i p) (0, 0)) := by
  induction n with
  | zero => exact fun _ _ hj => absurd hj (Nat.not_lt_zero _)
  | succ n ih =>
    rw [List.range_succ, List.foldl_append]
    exact ih.considerStart

/-- A match ends at or below p, so it starts below p − 1: the search has considered it. -/
theorem longestMatch_best (h : ValidMatch win pay i p j l) :
    l < (longestMatch win pay i p).1 ∨ (l = (longestMatch win pay i p).1 ∧ j ≤ (longestMatch win pay i p).2) := by
  have hstart : j < p - 1 := by
    obtain ⟨hmin, hbelow, -⟩ := h
    omega
  exact bestBelow_foldl win pay i p (p - 1) j l hstart h

end

/-- Settles O39: what the search finds is a match, and no match it considered is better. -/
theorem longestMatchIsLastLongest : Obligations.LongestMatchIsLastLongest := by
  intro win pay i p
  refine ⟨fun hnone => (longestMatch_cases win pay i p).resolve_right (hnone _ _), ?_⟩
  rintro ⟨j, l, hmatch⟩
  refine ⟨validMatch_of_longestMatch_pos ?_, fun _ _ => longestMatch_best⟩
  have hmin : 2 ≤ l := hmatch.1
  have hbest := longestMatch_best hmatch
  omega

/-! ### The selection (R118) -/

section
variable {l z d : Nat}

theorem select_match (h : TakesMatch l z d) : select l z d = .backref := if_pos h

theorem select_zeroRun (h : ¬ TakesMatch l z d) (hz : z > 1) : select l z d = .zeroRun :=
  (if_neg h).trans (if_pos hz)

theorem select_literal (h : ¬ TakesMatch l z d) (hz : z ≤ 1) : select l z d = .literal :=
  (if_neg h).trans (if_neg (Nat.not_lt.2 hz))

end

/-- Settles O40: the three cases of R118's rule. -/
theorem selectRule : Obligations.SelectRule := fun _ _ _ => ⟨select_match, select_zeroRun, select_literal⟩

end Sys2Proof.Machine
end

section
/-! PROOF. A pass of COMPRESS for each selection: its result with room, its fault without, and the end of the loop
(41_lz77_encoder.md R110, R112, R119 to R130); O41 to O45 and O50. -/

namespace Sys2Proof.Machine

/-! ### A pass -/

/-- What R118 selects at payload index I. -/
def State.choiceNow (s : State) : Choice := select s.bestNow.1 s.zNow s.distNow

section
variable {s : State} (hb : s.HasByte)
include hb

/-- A step of COMPRESS with a payload byte left emits what is selected, on the match state just computed (R112). -/
theorem step_pass : step s = settle false s (emitChoice s.choiceNow (scan s)) :=
  (step_encoding hb.1).trans (if_pos hb.2)

theorem step_pass_ok {t : State} (h : emitChoice s.choiceNow (scan s) = .ok t) : step s = .next t := by
  rw [step_pass hb, h, settle_ok]

/-- A pass whose bytes do not fit enters OutputOverflow(I), with UNSUP = 0 (R130). -/
theorem step_pass_overflow (h : emitChoice s.choiceNow (scan s) = .error (.raise .outputOverflow s.i)) :
    ∃ t, step s = .next t ∧ FaultEntry s t 3 s.i false :=
  ⟨_, by rw [step_pass hb, h, settle_raise], raise_faultEntry .outputOverflow s.i false s⟩

end

/-! ### The emission of each selection -/

section
variable {s : State}

theorem emitChoice_backref_ok
    (h : Fits s.caps.maxStreamOut (s.olen + (backrefBytes s.bestL (s.pos - s.bestJ)).length)) :
    emitChoice .backref s =
      .ok ((s.setDest .strOut (s.strOut ++ backrefBytes s.bestL (s.pos - s.bestJ))).endLiteralRun.consume s.bestL) := by
  simp only [emitChoice, emitBackref, emitAll_ok _ s h]
  rfl

theorem emitChoice_backref_error (hs : Fits s.caps.maxStreamOut s.olen)
    (h : ¬ Fits s.caps.maxStreamOut (s.olen + (backrefBytes s.bestL (s.pos - s.bestJ)).length)) :
    emitChoice .backref s = .error (.raise .outputOverflow s.i) := by
  obtain ⟨hfits, -⟩ | ⟨-, herr⟩ := emitAll_cases (backrefBytes s.bestL (s.pos - s.bestJ)) s hs
  · exact absurd hfits h
  · simp only [emitChoice, emitBackref, herr]
    rfl

theorem emitChoice_zeroRun_ok (h : Fits s.caps.maxStreamOut (s.olen + 1)) :
    emitChoice .zeroRun s =
      .ok ((s.setDest .strOut (s.strOut ++ [BitVec.ofNat 8 (0x80 ||| (s.z - 2))])).endLiteralRun.consume s.z) := by
  simp only [emitChoice, emitZeroRun, emit_ok _ s h]
  rfl

theorem emitChoice_zeroRun_error (h : ¬ Fits s.caps.maxStreamOut (s.olen + 1)) :
    emitChoice .zeroRun s = .error (.raise .outputOverflow s.i) := by
  simp only [emitChoice, emitZeroRun, emit_error _ s h]
  rfl

theorem emitChoice_literal_ok {x : Byte} {t : State} (hx : s.payIn[s.i]? = some x) (h : emitLiteral x s = .ok t) :
    emitChoice .literal s = .ok (t.consume 1) := by
  simp only [emitChoice, (memRead_ok_iff .payIn s.i s x).2 hx, bind, Except.bind, h]
  rfl

theorem emitChoice_literal_error (hi : s.i < s.plen)
    (h : (∃ c, s.Extends c ∧ ¬ Fits s.caps.maxStreamOut (s.olen + 1)) ∨
      (s.StartsRun ∧ ¬ Fits s.caps.maxStreamOut (s.olen + 2))) :
    emitChoice .literal s = .error (.raise .outputOverflow s.i) := by
  simp only [emitChoice, memRead_lt .payIn s.i s hi, bind, Except.bind, emitLiteral_error _ s h]

end

/-! ### The result of a pass -/

/-- Settles O41: the back-reference's bytes fit, so they are all appended. -/
theorem matchPass : Obligations.MatchPass := by
  intro s hb htakes hfits
  have hchoice : s.choiceNow = .backref := select_match htakes
  exact step_pass_ok hb (hchoice ▸ emitChoice_backref_ok (s := scan s) hfits)

/-- Settles O42: the one byte fits. -/
theorem zeroRunPass : Obligations.ZeroRunPass := by
  intro s hb htakes hz hfits
  have hchoice : s.choiceNow = .zeroRun := select_zeroRun htakes hz
  exact step_pass_ok hb (hchoice ▸ emitChoice_zeroRun_ok (s := scan s) hfits)

/-- Settles O43: the literal extends the open run, or starts a run. -/
theorem literalPass : Obligations.LiteralPass := by
  intro s x hb hx htakes hz
  have hchoice : s.choiceNow = .literal := select_literal htakes hz
  have hpass {t : State} (h : emitLiteral x (scan s) = .ok t) : step s = .next (t.consume 1) :=
    step_pass_ok hb (hchoice ▸ emitChoice_literal_ok (s := scan s) hx h)
  exact ⟨fun c hc hfits => hpass (emitLiteral_extends x c (scan s) hc hfits),
    fun hstart hfits => hpass (emitLiteral_starts x (scan s) hstart hfits)⟩

/-- Settles O44: the emission of each selection raises OutputOverflow(I) where its bytes do not fit. -/
theorem encoderOverflow : Obligations.EncoderOverflow := by
  intro s hb hs
  refine ⟨fun htakes hfull => ?_, fun htakes hz hfull => ?_, fun htakes hz hstart hfull => ?_,
    fun c htakes hz hc hfull => ?_⟩
  · have hchoice : s.choiceNow = .backref := select_match htakes
    exact step_pass_overflow hb (hchoice ▸ emitChoice_backref_error (s := scan s) hs.capacity hfull)
  · have hchoice : s.choiceNow = .zeroRun := select_zeroRun htakes hz
    exact step_pass_overflow hb (hchoice ▸ emitChoice_zeroRun_error (s := scan s) hfull)
  · have hchoice : s.choiceNow = .literal := select_literal htakes hz
    exact step_pass_overflow hb (hchoice ▸ emitChoice_literal_error (s := scan s) hb.2 (.inr ⟨hstart, hfull⟩))
  · have hchoice : s.choiceNow = .literal := select_literal htakes hz
    exact step_pass_overflow hb (hchoice ▸ emitChoice_literal_error (s := scan s) hb.2 (.inl ⟨c, hc, hfull⟩))

/-! ### The end of the loop -/

/-- Settles O45: with no payload byte left a step is the command's completion. -/
theorem compressCompletes : Obligations.CompressCompletes := by
  intro s hp hi
  rw [step_encoding hp, runEncoder, if_neg (Nat.not_lt.2 hi.ge)]
  rfl

/-- Advance moves I past at least one payload byte (R128). -/
theorem emitChoice_advances {c : Choice} {s t : State} (hs : StreamInv s) (hbest : c = .backref → 0 < s.bestL)
    (hz : c = .zeroRun → 0 < s.z) (h : emitChoice c s = .ok t) : s.i < t.i := by
  cases c with
  | backref =>
    obtain ⟨u, hu, h⟩ := bind_eq_ok h
    cases h
    rw [consume_i, (emitted_of_emitBackref hs hu).index]
    exact Nat.lt_add_of_pos_right (hbest rfl)
  | zeroRun =>
    obtain ⟨u, hu, h⟩ := bind_eq_ok h
    cases h
    rw [consume_i, (emitted_of_emitZeroRun hs hu).index]
    exact Nat.lt_add_of_pos_right (hz rfl)
  | literal =>
    obtain ⟨x, -, h⟩ := bind_eq_ok h
    obtain ⟨u, hu, h⟩ := bind_eq_ok h
    cases h
    rw [consume_i, (emitted_of_emitLiteral hs hu).index]
    exact Nat.lt_succ_self s.i

theorem encodeStep_advances {s t : State} (hs : StreamInv s) (h : encodeStep s = .ok t) : s.i < t.i :=
  emitChoice_advances (s := scan s) ⟨hs.literalRun, hs.capacity⟩ bestL_pos_of_select
    (fun hc => Nat.zero_lt_of_lt (two_le_of_select hc)) h

/-- What a step of COMPRESS's loop leads to: an idle core, or the loop with fewer payload bytes left. -/
theorem step_encoding_progress {s : State} (hp : s.phase = .encoding) (hs : s.EncodingInv) :
    ∃ t, step s = .next t ∧
      (t.phase = .idle ∨ t.phase = .encoding ∧ t.EncodingInv ∧ t.plen - t.i < s.plen - s.i) := by
  obtain ⟨t, ht⟩ := runEncoder_total hs
  refine ⟨t, (step_encoding hp).trans ht, ?_⟩
  rcases runEncoder_outcome ht with hok | ⟨p, rfl⟩ | rfl
  · have hch := changedByEncoder_of_encodeStep hok
    have hinv := encodeStep_encodingInv hs hok
    have hmore := encodeStep_advances ⟨hs.literalRun, hs.capacity⟩ hok
    obtain ⟨hphase, -⟩ := hch.reports
    obtain ⟨-, hpay, -⟩ := hch.keepsInputs
    have hplen : t.plen = s.plen := congrArg List.length hpay
    have hle : t.i ≤ t.plen := hinv.index
    exact .inr ⟨hphase.trans hp, hinv, by omega⟩
  · exact .inl rfl
  · exact .inl rfl

/-- Settles O50: each pass leaves fewer payload bytes. -/
theorem compressTerminates : Obligations.CompressTerminates := by
  intro s hp hs
  induction hleft : s.plen - s.i using Nat.strong_induction_on generalizing s with
  | h n ih =>
    obtain ⟨t, ht, hidle | ⟨hphase, hinv, hless⟩⟩ := step_encoding_progress hp hs
    · exact ⟨1, t, le_rfl, Nat.le_add_left 1 n, runSteps_succ 0 s t ht, hidle⟩
    · obtain ⟨k, u, -, hk, hrun, hidle⟩ := ih _ (hleft ▸ hless) t hphase hinv rfl
      exact ⟨k + 1, u, Nat.le_add_left 1 k, by omega, (runSteps_succ k s t ht).trans hrun, hidle⟩

end Sys2Proof.Machine
end

section
/-! PROOF. A payload of zero bytes only is one pass and one byte (41_lz77_encoder.md R133); O49. -/

namespace Sys2Proof.Machine

/-- A payload of k zero bytes, where the cap admits them, is one zero run (R113). -/
theorem zeroRunLength_replicate {k : Nat} (hk : k ≤ 17) : zeroRunLength (List.replicate k 0) 0 = k := by
  have hle := zeroRunLength_le (List.replicate k 0) (Nat.zero_le _)
  rw [Nat.zero_add, List.length_replicate] at hle
  refine hle.antisymm (Nat.le_of_not_lt fun hlt => ?_)
  refine getElem?_zeroRunLength_ne_zero (hlt.trans_le hk) ?_
  rw [Nat.zero_add, List.getElem?_replicate_of_lt hlt]

/-- A match that is no longer than the zero run is not taken (R118): so it is where the zero run is all that is left. -/
theorem not_takesMatch_of_zNow_eq {s : State} (hz : s.i + s.zNow = s.plen) :
    ¬ TakesMatch s.bestNow.1 s.zNow s.distNow := by
  rintro ⟨hlonger, -⟩
  have hend : s.i + s.bestNow.1 ≤ s.plen := longestMatch_le s.win s.payIn (s.i + 48) (Nat.le.intro hz)
  omega

/-- COMPRESS's loop ends with one byte from its start, where the zero run is the whole payload. -/
theorem runSteps_zero_payload {s : State} (hp : s.phase = .encoding) (hi : s.i = 0) (hstr : s.strOut = [])
    (hz : s.zNow = s.plen) (hmin : 2 ≤ s.plen) (hfits : Fits s.caps.maxStreamOut 1) :
    ∃ t, runSteps 2 s = .next t ∧ t.phase = .idle ∧ t.pending = s.pending ∧ t.status = 0 ∧
      t.result = .stream [BitVec.ofNat 8 (0x80 ||| (s.plen - 2))] := by
  have hpass := zeroRunPass s ⟨hp, by omega⟩ (not_takesMatch_of_zNow_eq (by omega)) (by omega)
    (by rwa [State.olen, hstr])
  have hend := compressCompletes { s with
      z := s.zNow, bestL := s.bestNow.1, bestJ := s.bestNow.2, litActive := false,
      strOut := s.strOut ++ [BitVec.ofNat 8 (0x80 ||| (s.zNow - 2))], i := s.i + s.zNow } hp
    (show s.i + s.zNow = s.plen by omega)
  refine ⟨_, (runSteps_succ 1 s _ hpass).trans (runSteps_succ 0 _ _ hend), rfl, rfl, rfl, ?_⟩
  rw [hstr, hz, List.nil_append]

/-- Settles O49: after the command's start, one pass that selects ZERORUN and the completion. -/
theorem zeroPayloadIsOneByte : Obligations.ZeroPayloadIsOneByte := by
  rintro s h p d k ⟨hidle, hissued⟩ hd hh hmin hmax hpay hfits
  have hstart := (step_issued hidle hissued).trans (startCommand_ok _ hd hh)
  obtain rfl : p.bytes.length = k := by rw [hpay, List.length_replicate]
  have hz : zeroRunLength p.bytes 0 = p.bytes.length := by
    rw [hpay, zeroRunLength_replicate hmax, List.length_replicate]
  obtain ⟨t, hrun, hphase, hpending, hstatus, hresult⟩ := runSteps_zero_payload
    (s := (State.built (.compress h p d) { s with pending := [] }).begin (.compress h p d)) rfl rfl rfl hz hmin hfits
  exact ⟨3, t, (runSteps_succ 2 s _ hstart).trans hrun, ⟨hphase, hpending⟩, hstatus, hresult⟩

end Sys2Proof.Machine
end

section
/-! PROOF. The opcodes of a match and of a whole stream (41_lz77_encoder.md R121 to R126, R131); O46, O47 and O48. -/

namespace Sys2Proof.Machine

/-! ### The bytes of a match -/

/-- Settles O47: the expansion has one opcode, and it encodes to that byte. -/
theorem shortBackrefByte : Obligations.ShortBackrefByte := by
  intro l d hl hd hn hs
  have hops : backrefOps l d = [.bref (l - 2) (d - l)] := by rw [backrefOps_eq, if_pos ⟨hn, hs⟩]
  rw [← assemble_backrefOps hl hd, hops]
  rfl

theorem dvd_chainLength (chain : List (Nat × Nat)) : 8 ∣ chainLength chain := by
  induction chain with
  | nil => exact Nat.dvd_zero 8
  | cons e chain ih => exact Nat.dvd_add (Nat.dvd_mul_right 8 e.1) ih

theorem dvd_chainDistance (chain : List (Nat × Nat)) : 8 ∣ chainDistance chain := by
  induction chain with
  | nil => exact Nat.dvd_zero 8
  | cons e chain ih => exact Nat.dvd_add (Nat.dvd_mul_right 8 e.2) ih

/-- The full distance opcodes leave N and S as they were, or at least 8 of S: each needs 128 and takes 120 (R123). -/
theorem fullDistanceOps_left (fuel nr sr : Nat) :
    (fullDistanceOps fuel nr sr).2 = (nr, sr) ∨ 8 ≤ (fullDistanceOps fuel nr sr).2.2 := by
  induction fuel generalizing nr sr with
  | zero => exact .inl rfl
  | succ fuel ih =>
    by_cases h : sr < 128
    · rw [fullDistanceOps_of_lt _ _ h]
      exact .inl rfl
    · rw [fullDistanceOps_of_ge _ _ (Nat.not_lt.1 h)]
      right
      rcases ih (nr - lengthFlag nr * extNStep) (sr - extSFull) with hsame | hleft
      · rw [hsame]
        simp only [extSFull]
        omega
      · exact hleft

/-- No full distance opcode is the byte 0xA0: its nibble is 15. -/
theorem brext_zero_notMem_fullDistanceOps (fuel nr sr : Nat) : .brext 0 0 ∉ (fullDistanceOps fuel nr sr).1 := by
  induction fuel generalizing nr sr with
  | zero => exact List.not_mem_nil
  | succ fuel ih =>
    by_cases h : sr < 128
    · rw [fullDistanceOps_of_lt _ _ h]
      exact List.not_mem_nil
    · rw [fullDistanceOps_of_ge _ _ (Nat.not_lt.1 h)]
      exact List.not_mem_cons_of_ne_of_not_mem (by simp) (ih _ _)

/-- A match that has no one-byte form has no 0xA0 in its chain: the final distance byte has N or S of 8 left to take. -/
theorem brext_zero_notMem_longBackrefOps {n s : Nat} (h : ¬ (n ≤ 7 ∧ s ≤ 7)) :
    .brext 0 0 ∉ longBackrefOps n s := by
  have hfull := brext_zero_notMem_fullDistanceOps s n s
  have hleft := fullDistanceOps_left s n s
  simp only [longBackrefOps]
  generalize fullDistanceOps s n s = full at hfull hleft ⊢
  have hfinal : ¬ (lengthFlag full.2.1 = 0 ∧ full.2.2 / 8 = 0) := by
    rintro ⟨hflag, hunits⟩
    rcases lengthFlag_cases full.2.1 with ⟨hn, -⟩ | ⟨-, hone⟩
    · rcases hleft with hsame | hleft
      · rw [hsame] at hn hunits
        omega
      · omega
    · omega
  simp only [List.mem_append, List.mem_singleton, List.mem_replicate, Instr.brext.injEq, not_or]
  exact ⟨⟨⟨hfull, fun ⟨hf, hv⟩ => hfinal ⟨hf.symm, hv.symm⟩⟩, by simp⟩, by simp⟩

theorem brext_zero_notMem_backrefOps (l d : Nat) : .brext 0 0 ∉ backrefOps l d := by
  rw [backrefOps_eq]
  split
  · simp
  · next h => exact brext_zero_notMem_longBackrefOps h

/-- R121 to R126: the opcodes of a match are a chain without 0xA0 and one Backref with N mod 8 and S mod 8, since the
chain takes multiples of 8 off N and S. -/
theorem backrefOps_eq_chain {l d : Nat} (hl : 2 ≤ l) (hd : l ≤ d) :
    ∃ chain, backrefOps l d = chainOps chain ++ [.bref ((l - 2) % 8) ((d - l) % 8)] ∧
      (∀ e ∈ chain, e.1 ≤ 1 ∧ e.2 ≤ 15 ∧ e ≠ (0, 0)) ∧
      chainLength chain + (l - 2) % 8 + 2 = l ∧ (d - l) % 8 + chainDistance chain + l = d := by
  have hwf := backrefOps_wellFormed l d
  have hzero := brext_zero_notMem_backrefOps l d
  obtain ⟨chain, m, q, hops, hlength, hdistance⟩ := backrefOps_eq_chainOps hl hd
  rw [hops] at hwf hzero
  have hbref : m ≤ 7 ∧ q ≤ 7 := by simpa [Instr.wellFormed] using hwf (.bref m q) (by simp)
  have hlength8 := dvd_chainLength chain
  have hdistance8 := dvd_chainDistance chain
  obtain rfl : m = (l - 2) % 8 := by omega
  obtain rfl : q = (d - l) % 8 := by omega
  refine ⟨chain, hops, fun e he => ?_, hlength, hdistance⟩
  have hmem : .brext e.1 e.2 ∈ chainOps chain := List.mem_map_of_mem he
  obtain ⟨hf, hv⟩ : e.1 ≤ 1 ∧ e.2 ≤ 15 := by
    simpa [Instr.wellFormed] using hwf _ (List.mem_append_left _ hmem)
  refine ⟨hf, hv, ?_⟩
  rintro rfl
  exact hzero (List.mem_append_left _ hmem)

/-- Settles O46: the emitted bytes are the chain's, and a stream splits back into its opcodes. -/
theorem backrefChainMeansItsMatch : Obligations.BackrefChainMeansItsMatch := by
  intro l d hl hd
  obtain ⟨chain, hops, hchain⟩ := backrefOps_eq_chain hl hd
  refine ⟨chain, ?_, hchain⟩
  rw [← assemble_backrefOps hl hd, streamSplitsIntoItsOpcodes _ (backrefOps_wellFormed l d), hops]
  rfl

/-! ### The opcodes of a stream (R131) -/

/-- R131's shape holds of two streams one after the other: the first leaves no chain open. -/
theorem encoderOps_append {is js : List Instr} (his : encoderOps is = true) (hjs : encoderOps js = true) :
    encoderOps (is ++ js) = true := by
  induction is using encoderOps.induct with
  | case1 => exact hjs
  | case2 k ds r ih =>
    obtain ⟨hk, hr⟩ := Bool.and_eq_true_iff.1 his
    exact Bool.and_eq_true_iff.2 ⟨hk, ih hr⟩
  | case3 c r ih => exact ih his
  | case4 m q r ih => exact ih his
  | case5 f v => cases his
  | case6 f v f' v' r ih =>
    obtain ⟨hne, hr⟩ := Bool.and_eq_true_iff.1 his
    exact Bool.and_eq_true_iff.2 ⟨hne, ih hr⟩
  | case7 f v m q r ih =>
    obtain ⟨hne, hr⟩ := Bool.and_eq_true_iff.1 his
    exact Bool.and_eq_true_iff.2 ⟨hne, ih hr⟩
  | case8 i r hlit hzrun hbref hlast hext hend =>
    cases (encoderOps.eq_8 i r hlit hzrun hbref hlast hext hend).symm.trans his

theorem encoderOps_chainOps {chain : List (Nat × Nat)} (m q : Nat) (h : ∀ e ∈ chain, e ≠ (0, 0)) :
    encoderOps (chainOps chain ++ [.bref m q]) = true := by
  induction chain with
  | nil => rfl
  | cons e chain ih =>
    obtain ⟨he, hrest⟩ := List.forall_mem_cons.1 h
    have hne : (e.1 != 0 || e.2 != 0) = true := by
      rw [Ne, Prod.ext_iff] at he
      simpa [imp_iff_not_or] using he
    cases chain with
    | nil => exact Bool.and_eq_true_iff.2 ⟨hne, rfl⟩
    | cons e' chain => exact Bool.and_eq_true_iff.2 ⟨hne, ih hrest⟩

/-- A stream of well-formed opcodes in R131's shape. -/
def EncoderStream (str : List Byte) : Prop :=
  ∃ is, str = assemble is ∧ (∀ i ∈ is, i.wellFormed = true) ∧ encoderOps is = true

theorem EncoderStream.append {str : List Byte} {is : List Instr} (h : EncoderStream str)
    (hwf : ∀ i ∈ is, i.wellFormed = true) (hops : encoderOps is = true) : EncoderStream (str ++ assemble is) := by
  obtain ⟨before, rfl, hbefore, hshape⟩ := h
  exact ⟨before ++ is, (assemble_append before is).symm, List.forall_mem_append.2 ⟨hbefore, hwf⟩,
    encoderOps_append hshape hops⟩

theorem Rebuilds.encoderStream {ctx str out : List Byte} (h : Rebuilds ctx str out) : EncoderStream str := by
  induction h with
  | nil => exact ⟨[], rfl, nofun, rfl⟩
  | @literal str out ds before hmin hmax ih =>
    rw [← List.append_nil (encode _)]
    exact ih.append (is := [.lit ds.length ds]) (by simp [Instr.wellFormed, hmax]) (by simp [encoderOps, hmin])
  | @zeros str out c before hmin hmax ih =>
    exact ih.append (is := [.zrun c]) (by simp [Instr.wellFormed, hmin, hmax]) rfl
  | @backref str out l d before hmin hle hd ih =>
    obtain ⟨chain, hops, hchain, -⟩ := backrefOps_eq_chain hmin hle
    exact ih.append (backrefOps_wellFormed l d) (hops ▸ encoderOps_chainOps _ _ fun e he => (hchain e he).2.2)

/-- Settles O48: each emission the stream consists of has R131's shape, and a stream splits back into its opcodes. -/
theorem compressedStreamShape : Obligations.CompressedStreamShape := by
  intro s t h p d k str hs hrun hdone hresult
  obtain ⟨is, rfl, hwf, hshape⟩ := (compress_rebuilds hs hrun hdone hresult).encoderStream
  exact ⟨is, streamSplitsIntoItsOpcodes is hwf, hwf, hshape⟩

end Sys2Proof.Machine
end

section
/-! PROOF. A step of the lz77_decoder (42_lz77_decoder.md R141 to R149): the opcode at IP, each opcode's result and
faults, and the end of the stream, which every DECOMPRESS reaches; O10 to O19 and O51. -/

namespace Sys2Proof.Machine

/-! ### The opcode at IP -/

/-- Settles O10: the fetch gives the opcode in both cases. -/
theorem stepRunsTheDecodedOpcode : Obligations.StepRunsTheDecodedOpcode := by
  intro s i hp
  exact ⟨fun _ h => step_fetched hp (by rw [fetch, h]), fun h => step_fetched hp (by rw [fetch, h])⟩

/-- The bytes of a word are one whole opcode: as many as its leading byte says (30_encoding.md R71). -/
theorem decode_wordBytes (nbits w : Nat) : ∃ i, decode (wordBytes nbits w) = .ok (i, []) := by
  have hcons : wordBytes nbits w = wordByte nbits w 0 ::
      (List.range (operandBytes (wordByte nbits w 0))).map (fun j => wordByte nbits w (j + 1)) := by
    rw [wordBytes, opcodeLength, Nat.add_comm, List.range_succ_eq_map, List.map_cons, List.map_map]
    rfl
  have hlen : ((List.range (operandBytes (wordByte nbits w 0))).map (fun j => wordByte nbits w (j + 1))).length =
      operandBytes (wordByte nbits w 0) := by rw [List.length_map, List.length_range]
  exact ⟨_, by rw [hcons, decode_whole hlen.ge, List.drop_eq_nil_of_le hlen.le]⟩

/-- The command `State.loaded` stands for is started (log 11): DECOMPRESS's loop is entered. -/
theorem loaded_phase (s : State) : s.loaded.phase = .decoding := by
  have hd : (Command.decompress ⟨0, loaderHeader⟩ ⟨hdrMin, []⟩ ⟨hdrMin, 0⟩).Disjoint :=
    (Command.disjoint_iff _).2 (by decide)
  rw [State.loaded, startCommand_ok s hd (by decide)]
  rfl

theorem withFetchWord_phase (s : State) (nbits w : Nat) : (s.withFetchWord nbits w).phase = .decoding := by
  by_cases hp : s.phase = .decoding
  · exact (congrArg State.phase (if_pos hp)).trans hp
  · exact (congrArg State.phase (if_neg hp)).trans (loaded_phase s)

/-- What is written after exactly n bytes stands at index n. -/
theorem drop_take_append_replicate (bs rest : List Byte) (n : Nat) :
    (bs.take n ++ List.replicate (n - bs.length) 0 ++ rest).drop n = rest := by
  refine List.drop_left' ?_
  rw [List.length_append, List.length_take, List.length_replicate]
  omega

/-- The word's bytes stand at IP. -/
theorem withFetchWord_drop (s : State) (nbits w : Nat) :
    ∃ rest, (s.withFetchWord nbits w).strIn.drop (s.withFetchWord nbits w).ip = wordBytes nbits w ++ rest := by
  simp only [State.withFetchWord, State.slen, List.append_assoc _ (wordBytes nbits w)]
  exact ⟨_, drop_take_append_replicate _ _ _⟩

/-- Settles O11: the word is the encoding of the opcode it decodes to, and stands at IP of a running DECOMPRESS. -/
theorem fetchWordRunsItsOpcode : Obligations.FetchWordRunsItsOpcode := by
  intro s nbits w
  obtain ⟨i, hi⟩ := decode_wordBytes nbits w
  obtain ⟨hwf, hbytes⟩ := decodedBytesAreTheEncoding _ _ _ hi
  obtain ⟨rest, hrest⟩ := withFetchWord_drop s nbits w
  rw [hbytes, List.append_nil] at hrest
  exact ⟨i, by rw [decodeTableWord, hi], step_of_drop_eq_encode (withFetchWord_phase s nbits w) hwf hrest⟩

/-! ### Each opcode's result -/

/-- An outcome that raises an error enters that error's fault (60_exceptions.md R178). -/
theorem exists_faultEntry_of_eq_raise {o : Host.Outcome State Fault Refusal} {s : State} {e : ErrorKind} {p : Nat}
    {u : Bool} (h : o = .next (s.raise e p u)) : ∃ t, o = .next t ∧ FaultEntry s t e.code.toNat p u :=
  ⟨_, h, raise_faultEntry e p u s⟩

/-- OUT grows by n bytes, and CUR by n (10_state.md R30, R34). -/
theorem extend_out_eq_of_length (s : State) {bs : List Byte} {n : Nat} (h : bs.length = n) :
    s.extend .out bs = { s with out := s.out ++ bs, cur := s.cur + n } := by
  rw [← h]
  rfl

/-- Settles O13, by the order of R142's checks. -/
theorem literalRunResult : Obligations.LiteralRunResult := by
  intro s k ds
  refine ⟨fun hdata hroom hlen => ?result, fun hdata => ?truncated, fun hdata hroom => ?overflow⟩
  case result =>
    rw [exec_lit_ok ds hdata hroom, extend_out_eq_of_length s hlen, Nat.add_assoc]
    rfl
  case truncated => exact exists_faultEntry_of_eq_raise (exec_lit_truncated ds hdata)
  case overflow => exact exists_faultEntry_of_eq_raise (exec_lit_overflow ds hdata hroom)

/-- Settles O14, by R143's check. -/
theorem zeroRunResult : Obligations.ZeroRunResult := by
  intro s c
  refine ⟨fun hroom => ?result, fun hroom => ?overflow⟩
  case result =>
    rw [exec_zrun_ok hroom, extend_out_eq_of_length s List.length_replicate]
    rfl
  case overflow => exact exists_faultEntry_of_eq_raise (exec_zrun_overflow hroom)

/-- Settles O15: R79's shifts by 3 are multiplications by 8. -/
theorem backrefExtendResult : Obligations.BackrefExtendResult := by
  intro s f v
  have h8 (n : Nat) : n <<< 3 = 8 * n := by rw [Nat.shiftLeft_eq, Nat.mul_comm]
  rw [exec_brext, extLength, extDistance, h8, h8]
  rfl

/-- A Backref's source range lies in OUT: it has as many bytes as are copied (R149). -/
theorem length_backrefSource {s : State} {m q : Nat} (hc : s.cur = s.out.length) (hd : refDistance m q s ≤ s.cur) :
    ((s.out.drop (s.cur - refDistance m q s)).take (refLength m s)).length = refLength m s := by
  have hle := refLength_le_refDistance m q s
  rw [List.length_take, List.length_drop]
  omega

/-- Settles O16, by the order of R145's checks. -/
theorem backrefResult : Obligations.BackrefResult := by
  intro s m q n d
  refine ⟨fun hc hd hroom => ?result, fun hd => ?distance, fun hd hroom => ?overflow⟩
  case result =>
    rw [exec_bref_ok hc hd hroom, extend_out_eq_of_length s (length_backrefSource hc hd)]
    rfl
  case distance => exact exists_faultEntry_of_eq_raise (exec_bref_distance hd)
  case overflow => exact exists_faultEntry_of_eq_raise (exec_bref_overflow hd hroom)

/-- Settles O17: Stop only notes itself and moves past itself. -/
theorem stopResult : Obligations.StopResult := exec_stop

/-- Settles O18: the four rows raise the same error. -/
theorem reservedBytesRaise : Obligations.ReservedBytesRaise := by
  intro s x i hi
  refine exists_faultEntry_of_eq_raise (e := .reservedOpcode) ?_
  simp only [List.mem_cons, List.not_mem_nil, or_false] at hi
  rcases hi with rfl | rfl | rfl | rfl <;> rfl

/-- Settles O19: the distance is the length and more. -/
theorem backrefSourceBelowCursor : Obligations.BackrefSourceBelowCursor := by
  intro s m q
  have hle := refLength_le_refDistance m q s
  exact ⟨hle, fun hd => by omega⟩

/-! ### The end of the stream -/

/-- Settles O12, by whether a chain is open. -/
theorem endOfStreamResult : Obligations.EndOfStreamResult := by
  intro s hp hip
  have hend : step s = endOfStream s :=
    step_endOfStream hp (fetch_of_drop_eq_nil (List.drop_eq_nil_of_le hip.ge))
  refine ⟨fun hopen => ?opened, fun hclosed => ?closed⟩
  case opened => exact exists_faultEntry_of_eq_raise (hend.trans (endOfStream_open hopen))
  case closed =>
    have hstatus : statusWord 0 s.stopSeen = if s.stopSeen then 8 else 0 := by cases s.stopSeen <;> rfl
    rw [hend, endOfStream_closed hclosed, State.finish, hstatus, State.payOut, space_payOut]

/-- An opcode that completes moves IP forward (10_state.md R29). -/
theorem OpcodeCompletes.ip_lt {s t : State} {i : Instr} (h : OpcodeCompletes s i t) : s.ip < t.ip := by
  cases h with
  | lit k ds =>
    rw [advance_ip, extend_out_ip]
    omega
  | zrun | stop | brext | bref => exact Nat.lt_succ_self s.ip

/-- What a step of DECOMPRESS's loop leads to: an idle core, or the loop with less of the stream left. -/
theorem step_decoding_progress {s : State} (hp : s.phase = .decoding) (hc : s.cur = s.out.length) :
    ∃ t, step s = .next t ∧
      (t.phase = .idle ∨ t.phase = .decoding ∧ t.cur = t.out.length ∧ t.slen - t.ip < s.slen - s.ip) := by
  cases hf : fetch s with
  | none =>
    obtain ⟨t, ht⟩ := endOfStream_total s
    refine ⟨t, (step_endOfStream hp hf).trans ht, .inl ?_⟩
    rcases endOfStream_outcome ht with rfl | rfl <;> rfl
  | some i =>
    obtain ⟨t, ht⟩ := exec_total i s hc
    refine ⟨t, (step_fetched hp hf).trans ht, ?_⟩
    rcases exec_outcome ht with hok | ⟨e, -, rfl⟩
    · obtain ⟨hphase, -⟩ := hok.changedByDecoder.reports
      obtain ⟨-, -, -, hstr⟩ := hok.changedByDecoder.keepsInputs
      obtain ⟨hlt, -⟩ := fetch_some hf
      have hslen : t.slen = s.slen := congrArg List.length hstr
      have hip := hok.ip_lt
      exact .inr ⟨hphase.trans hp, hok.cursor hc, by omega⟩
    · exact .inl rfl

/-- Settles O51: each opcode leaves less of the stream. -/
theorem decompressTerminates : Obligations.DecompressTerminates := by
  intro s hp hc
  induction hleft : s.slen - s.ip using Nat.strong_induction_on generalizing s with
  | h n ih =>
    obtain ⟨t, ht, hidle | ⟨hphase, hcur, hless⟩⟩ := step_decoding_progress hp hc
    · exact ⟨1, t, le_rfl, Nat.le_add_left 1 n, runSteps_succ 0 s t ht, hidle⟩
    · obtain ⟨k, u, -, hk, hrun, hidle⟩ := ih _ (hleft ▸ hless) t hphase hcur rfl
      exact ⟨k + 1, u, Nat.le_add_left 1 k, by omega, (runSteps_succ k s t ht).trans hrun, hidle⟩

end Sys2Proof.Machine
end

section
/-! PROOF. What reset leaves in the address spaces (70_reset_and_hazards.md R190); O30. -/

namespace Sys2Proof.Machine

/-- The model's choice (log 8). PAY_OUT is no field of its own: it is OUT from the 48 context bytes on (20_memory.md R50),
so it is empty because OUT is. -/
@[simp] theorem reset_space (sp : Space) : State.reset.space sp = [] := by
  cases sp with
  | payOut => exact List.drop_nil
  | hdr | ctx | payIn | win | strOut | strIn | out => rfl

/-- Settles O30: the phase, the pending commands and the result are reset's own fields, and the spaces are
`reset_space`. -/
theorem resetIsIdle : Obligations.ResetIsIdle :=
  ⟨rfl, rfl, rfl, reset_space⟩

end Sys2Proof.Machine
end
